-- ==== Sys2Proof/Word.lean ====
section
/-! DEFINITION. The word types of VW-CORE. Bit numbering is LSB-0 (00_scope.md R11): bit 0 of a value
is its least significant bit, and record cell `i` is bit `i` of the record. -/

namespace Sys2Proof

/-- One byte: a character of SERIAL, a byte of DG, SECRET or HASH_SEED (00_scope.md R15; 10_state.md R26, R29, R40). -/
abbrev Byte := BitVec 8

/-- One 32-bit word: a host register or a command word (20_memory.md R61; 30_encoding.md R90). -/
abbrev Word := BitVec 32

/-- A record register file: 125 one-bit cells, cell `i` at bit `i` (10_state.md R20, R24). -/
abbrev Record := BitVec 125

end Sys2Proof
end

