-- ==== Sys2Proof/Config.lean ====
section
/-! DEFINITION. The parameters of an instance of VW-CORE (00_scope.md R9), their well-formedness
(44_encode.md R233; 93_implementation_defined.md I7), the OPEN ones as constants without a body, and the
closed sets of names the spec gives its fields and its error codes. -/

namespace Sys2Proof

/-- The command errors (60_exceptions.md R270). Each is raised by a command that ends without its effect,
and reported in STATUS. The code 0 (NONE) is no error, and the codes 7 to 15 are never produced. -/
inductive CmdError where
  /-- The addon count NADD is not 5 (41_packing.md R150). -/
  | invalidAddonCount
  /-- The version lies outside 0..31 (41_packing.md R150). -/
  | versionOutOfRange
  /-- The count lies outside 0..65535 (41_packing.md R150). -/
  | countOutOfRange
  /-- The word is no command (30_encoding.md R94 to R97). -/
  | illegalCommand
  /-- START + WIDTH exceeds 125 on a field command (30_encoding.md R97). -/
  | fieldRange
  /-- SKPUSH on a full store (42_checksum.md R181). -/
  | secretFull
  deriving DecidableEq, Repr

/-- The named fields of the record (00_scope.md R17). -/
inductive Field where
  | hash | addonFlags | count | support | subscription | expiration | issue | unitId | version | batchId
  deriving DecidableEq, Repr

/-- Which digest the host's machine computes, as plain data that State can hold (42_checksum.md R183): the spec's
default SHA-1, or another total function from byte sequences to 20 bytes, named by a number (`Config.otherDigest`).
A machine that takes the function itself as its argument is `Machine.stepWith` (00_scope.md R9; log entry 8). -/
inductive DigestChoice where
  | sha1
  | other (n : Nat)
  deriving DecidableEq, Repr

/-- The 32 characters of 10_state.md R41 in the order of 00_scope.md R9's default ALPHABET,
`0123456789ACDEFGHJKLMNPQRTUVWXYZ`, by their ASCII codes (00_scope.md R15). -/
def symbolSet : List Byte :=
  [0x30#8, 0x31#8, 0x32#8, 0x33#8, 0x34#8, 0x35#8, 0x36#8, 0x37#8, 0x38#8, 0x39#8, 0x41#8, 0x43#8, 0x44#8,
   0x45#8, 0x46#8, 0x47#8, 0x48#8, 0x4A#8, 0x4B#8, 0x4C#8, 0x4D#8, 0x4E#8, 0x50#8, 0x51#8, 0x52#8, 0x54#8,
   0x55#8, 0x56#8, 0x57#8, 0x58#8, 0x59#8, 0x5A#8]

/-- The parameters of 00_scope.md R9, not yet checked. -/
structure Params where
  /-- DIGEST160 (42_checksum.md R183). -/
  digest    : DigestChoice
  /-- HASH_SEED, 32 bytes (10_state.md R40). -/
  hashSeed  : Vector Byte 32
  /-- ALPHABET, 32 characters (10_state.md R41). -/
  alphabet  : Vector Byte 32
  /-- SLOT_MAP, 25 symbol slots (10_state.md R42). -/
  slotMap   : Vector (Fin 25) 25
  /-- CK_PAD, 3 bits (42_checksum.md R186). -/
  ckPad     : BitVec 3
  /-- SECRET_MAX, 1..255 (10_state.md R29). -/
  secretMax : Nat
  /-- BASE, the bus address of the register window (20_memory.md R60). -/
  base      : Nat
  deriving DecidableEq, Repr

/-- Configuration well-formedness (44_encode.md R233; 93_implementation_defined.md I7): ALPHABET is injective and
its image is the 32 characters; SLOT_MAP is injective, hence a bijection on 0..24; SECRET_MAX lies in 1..255. -/
abbrev Params.WellFormed (p : Params) : Prop :=
  p.alphabet.toList.Nodup ∧ p.alphabet.toList ⊆ symbolSet ∧ symbolSet ⊆ p.alphabet.toList ∧
  p.slotMap.toList.Nodup ∧ 1 ≤ p.secretMax ∧ p.secretMax ≤ 255

/-- The configuration of an instance: parameters that passed the check. An ill-formed one cannot be built,
so it is never run (44_encode.md R233; 60_exceptions.md R275). -/
structure Config extends Params where
  wellFormed : toParams.WellFormed
  deriving DecidableEq, Repr

/-- HASH_SEED is OPEN: no source gives the bytes (91_not_in_source.md N1). DESIGN CHOICE, safe: a constant
without a body (log entry 5). -/
opaque Config.openHashSeed : Vector Byte 32

/-- SLOT_MAP is OPEN: no source gives the table (91_not_in_source.md N3). DESIGN CHOICE, safe: a bijection of 0..24
without a body (log entry 6). -/
opaque Config.openSlotMap : Equiv.Perm (Fin 25)

/-- BASE is OPEN: it belongs to the platform (20_memory.md R60). DESIGN CHOICE, safe: a constant without a body
(log entry 7). -/
opaque Config.openBase : Nat

/-- A digest other than the default: any total function that depends only on the message (42_checksum.md R183),
one for each number, without a body. DESIGN CHOICE, safe (log entry 8). -/
opaque Config.otherDigest : Nat → List Byte → Vector Byte 20

/-- The parameters of 00_scope.md R9 at the values the spec gives them: the stated defaults, and the OPEN ones as
constants without a body. -/
def Params.default : Params :=
  { digest := .sha1
    hashSeed := Config.openHashSeed
    alphabet := ⟨symbolSet.toArray, rfl⟩
    slotMap := Vector.ofFn fun i => Config.openSlotMap i
    ckPad := 0#3
    secretMax := 64
    base := Config.openBase }

theorem Params.default_slotMap_nodup : Params.default.slotMap.toList.Nodup := by
  simp only [Params.default, Vector.toList_ofFn]
  exact List.nodup_ofFn.mpr Config.openSlotMap.injective

theorem Params.default_wellFormed : Params.default.WellFormed :=
  ⟨by decide, by decide, by decide, Params.default_slotMap_nodup, by decide, by decide⟩

/-- The configuration `State.reset` runs under (00_scope.md R9). -/
def Config.default : Config := { Params.default with wellFormed := Params.default_wellFormed }

/-- The parameters of the reference instantiation RI (00_scope.md R10): it exists for the spec's test vectors only. R10
gives RI no BASE and R9 leaves BASE OPEN: the 0 here is DESIGN CHOICE (log entry 7), and no step reads it. -/
def Params.ri : Params :=
  { Params.default with
    hashSeed := Vector.replicate 32 0#8
    slotMap := Vector.ofFn fun i => i
    base := 0 }

theorem Params.ri_wellFormed : Params.ri.WellFormed := by decide

/-- The reference instantiation RI (00_scope.md R10). Its HASH_SEED and SLOT_MAP are the spec's placeholders. -/
def Config.ri : Config := { Params.ri with wellFormed := Params.ri_wellFormed }

end Sys2Proof
end

