-- ==== Sys2Proof/Syntax.lean ====
section
/-! DEFINITION. The commands of VW-CORE, one constructor per row of spec/opcode_table.json
(30_encoding.md R93). A command is the "instruction" of this block (00_scope.md R16). -/

namespace Sys2Proof

/-- A command. `start` and `width` are the unsigned fields START and WIDTH (30_encoding.md R91, R92). -/
inductive Instr where
  | nop
  | clear
  | get (start : BitVec 7) (width : BitVec 6)
  | set (start : BitVec 7) (width : BitVec 6)
  | getp (start : BitVec 7) (width : BitVec 6)
  | setp (start : BitVec 7) (width : BitVec 6)
  | validate
  | pack
  | checksum
  | wrhash
  | permute
  | encode
  | generate
  | skclr
  | skpush
  deriving DecidableEq, Repr

end Sys2Proof
end

