-- ==== Sys2Proof/WellFormed.lean ====
section
/-! DEFINITION. Which commands the assembler accepts (30_encoding.md R98, R99): a field command's span
lies in the record's 125 cells. -/

namespace Sys2Proof

/-- The span `start .. start+width-1` lies in cells 0..124 (30_encoding.md R97; 20_memory.md R69). -/
abbrev SpanInRecord (start : BitVec 7) (width : BitVec 6) : Prop :=
  start.toNat + width.toNat ≤ 125

/-- A field command whose span lies in the record, or any other command (30_encoding.md R98). -/
def Instr.wellFormed : Instr → Bool
  | .get start width => decide (SpanInRecord start width)
  | .set start width => decide (SpanInRecord start width)
  | .getp start width => decide (SpanInRecord start width)
  | .setp start width => decide (SpanInRecord start width)
  | .nop => true
  | .clear => true
  | .validate => true
  | .pack => true
  | .checksum => true
  | .wrhash => true
  | .permute => true
  | .encode => true
  | .generate => true
  | .skclr => true
  | .skpush => true

/-- A well-formed command, as a proposition. -/
abbrev Instr.WellFormed (i : Instr) : Prop := i.wellFormed = true

end Sys2Proof
end

