-- ==== Sys2Proof/Decode.lean ====
section
/-! DEFINITION. Decoding a command word (30_encoding.md R90 to R97), and the encoder.

The decoder makes the checks on the form of the word. The range check of a field command, R97's last check,
is made by the command's own meaning before it writes anything (40_record_access.md R123 to R126), so that every
word of an opcode-table row decodes to that row's command (log entry 14). -/

namespace Sys2Proof

/-- OP, bits 4:0 (30_encoding.md R91). -/
def opField (c : Word) : BitVec 5 := c.extractLsb' 0 5

/-- START, bits 11:5 (30_encoding.md R91). -/
def startField (c : Word) : BitVec 7 := c.extractLsb' 5 7

/-- WIDTH, bits 17:12 (30_encoding.md R91). -/
def widthField (c : Word) : BitVec 6 := c.extractLsb' 12 6

/-- RSV, bits 31:18, which must be 0 (30_encoding.md R91). -/
def rsvField (c : Word) : BitVec 14 := c.extractLsb' 18 14

/-- The opcode map (30_encoding.md R93): the command an operation code stands for; none for a reserved code
(R94). -/
def commandOf (op : BitVec 5) (start : BitVec 7) (width : BitVec 6) : Option Instr :=
  match op.toNat with
  | 0x00 => some .nop
  | 0x01 => some .clear
  | 0x02 => some (.get start width)
  | 0x03 => some (.set start width)
  | 0x04 => some (.getp start width)
  | 0x05 => some (.setp start width)
  | 0x06 => some .validate
  | 0x07 => some .pack
  | 0x08 => some .checksum
  | 0x09 => some .wrhash
  | 0x0A => some .permute
  | 0x0B => some .encode
  | 0x0C => some .generate
  | 0x0D => some .skclr
  | 0x0E => some .skpush
  | _ => none

/-- Whether an operation code uses START and WIDTH (30_encoding.md R93): GET, SET, GETP, SETP. -/
def usesField (op : BitVec 5) : Bool :=
  decide (0x02 ≤ op.toNat) && decide (op.toNat ≤ 0x05)

/-- Decoding, in the order of 30_encoding.md R97: RSV, then OP, then unused fields. Total: every word is a command
or is refused by the name of its error. -/
def decode (c : Word) : Except CmdError Instr :=
  if rsvField c ≠ 0#14 then .error .illegalCommand
  else
    match commandOf (opField c) (startField c) (widthField c) with
    | none => .error .illegalCommand
    | some i =>
      if usesField (opField c) = false ∧ (startField c ≠ 0#7 ∨ widthField c ≠ 0#6) then .error .illegalCommand
      else .ok i

/-- The instruction the decoder reads from an opcode-table word (bit 0 the least significant bit of the one
word). A row has 32 bits, and bits from `nbits` on are 0. -/
def decodeTableWord (nbits w : Nat) : Option Instr :=
  match decode (BitVec.ofNat 32 (w % 2 ^ nbits)) with
  | .ok i => some i
  | .error _ => none

/-- The operation code of a command (30_encoding.md R93). -/
def opcode : Instr → BitVec 5
  | .nop => 0x00#5
  | .clear => 0x01#5
  | .get _ _ => 0x02#5
  | .set _ _ => 0x03#5
  | .getp _ _ => 0x04#5
  | .setp _ _ => 0x05#5
  | .validate => 0x06#5
  | .pack => 0x07#5
  | .checksum => 0x08#5
  | .wrhash => 0x09#5
  | .permute => 0x0A#5
  | .encode => 0x0B#5
  | .generate => 0x0C#5
  | .skclr => 0x0D#5
  | .skpush => 0x0E#5

/-- A word of the one format, RSV = 0, most significant field first (30_encoding.md R91). -/
def formatWord (op : BitVec 5) (start : BitVec 7) (width : BitVec 6) : Word :=
  0#14 ++ width ++ start ++ op

/-- START of a command's word: 0 where the command does not use it (30_encoding.md R96). -/
def startOf : Instr → BitVec 7
  | .get start _ => start
  | .set start _ => start
  | .getp start _ => start
  | .setp start _ => start
  | .nop => 0#7
  | .clear => 0#7
  | .validate => 0#7
  | .pack => 0#7
  | .checksum => 0#7
  | .wrhash => 0#7
  | .permute => 0#7
  | .encode => 0#7
  | .generate => 0#7
  | .skclr => 0#7
  | .skpush => 0#7

/-- WIDTH of a command's word: 0 where the command does not use it (30_encoding.md R96). -/
def widthOf : Instr → BitVec 6
  | .get _ width => width
  | .set _ width => width
  | .getp _ width => width
  | .setp _ width => width
  | .nop => 0#6
  | .clear => 0#6
  | .validate => 0#6
  | .pack => 0#6
  | .checksum => 0#6
  | .wrhash => 0#6
  | .permute => 0#6
  | .encode => 0#6
  | .generate => 0#6
  | .skclr => 0#6
  | .skpush => 0#6

/-- The word of a command, `OP | (s << 5) | (w << 12)` (30_encoding.md R91, R93). -/
def encode (i : Instr) : Word := formatWord (opcode i) (startOf i) (widthOf i)

end Sys2Proof
end

