-- ==== Sys2Proof/Machine/Digest.lean ====
section
/-! DEFINITION. DIGEST160 (42_checksum.md R183). The default is SHA-1 as FIPS 180-4 defines it, which the spec names
from general knowledge and does not write out: the algorithm below is PRESUMED from the standard, unsafe where it
departs from it (log entry 8); the spec's own digest values test it. -/

namespace Sys2Proof.Machine

/-- One 32-bit big-endian word of four bytes. -/
def beWord (b0 b1 b2 b3 : Byte) : Word := b0 ++ b1 ++ b2 ++ b3

/-- The bytes of a message as big-endian words; a last group of fewer than four bytes is dropped. -/
def beWords : List Byte → List Word
  | b0 :: b1 :: b2 :: b3 :: rest => beWord b0 b1 b2 b3 :: beWords rest
  | _ => []

/-- A word as four bytes, most significant first. -/
def wordBytes (w : Word) : List Byte :=
  [w.extractLsb' 24 8, w.extractLsb' 16 8, w.extractLsb' 8 8, w.extractLsb' 0 8]

/-- Padding: one byte 0x80, zero bytes up to 56 modulo 64, and the message length in bits as 64 bits big-endian. -/
def sha1Pad (m : List Byte) : List Byte :=
  let bits := BitVec.ofNat 64 (8 * m.length)
  m ++ 0x80#8 :: List.replicate ((119 - m.length % 64) % 64) 0x00#8 ++ wordBytes (bits.extractLsb' 32 32) ++
    wordBytes (bits.extractLsb' 0 32)

/-- The message schedule, newest word first: `n` more words after the ones given. -/
def sha1Extend : Nat → List Word → List Word
  | 0, ws => ws
  | n + 1, ws =>
    sha1Extend n
      (((ws.getD 2 0#32 ^^^ ws.getD 7 0#32 ^^^ ws.getD 13 0#32 ^^^ ws.getD 15 0#32).rotateLeft 1) :: ws)

/-- The five chaining words. -/
structure Sha1State where
  a : Word
  b : Word
  c : Word
  d : Word
  e : Word
  deriving DecidableEq, Repr

/-- The logical function and the constant of round `t`. -/
def sha1Round (t : Nat) (b c d : Word) : Word × Word :=
  if t < 20 then ((b &&& c) ||| (~~~b &&& d), 0x5A827999#32)
  else if t < 40 then (b ^^^ c ^^^ d, 0x6ED9EBA1#32)
  else if t < 60 then ((b &&& c) ||| (b &&& d) ||| (c &&& d), 0x8F1BBCDC#32)
  else (b ^^^ c ^^^ d, 0xCA62C1D6#32)

/-- One round on a schedule word. -/
def sha1Step (t : Nat) (h : Sha1State) (w : Word) : Sha1State :=
  let fk := sha1Round t h.b h.c h.d
  { a := h.a.rotateLeft 5 + fk.1 + h.e + fk.2 + w, b := h.a, c := h.b.rotateLeft 30, d := h.c, e := h.d }

/-- The rounds over the schedule words, from round `t` on. -/
def sha1Rounds : Nat → List Word → Sha1State → Sha1State
  | _, [], h => h
  | t, w :: ws, h => sha1Rounds (t + 1) ws (sha1Step t h w)

/-- One block of 16 words. -/
def sha1Block (h : Sha1State) (block : List Word) : Sha1State :=
  let r := sha1Rounds 0 (sha1Extend 64 block.reverse).reverse h
  { a := h.a + r.a, b := h.b + r.b, c := h.c + r.c, d := h.d + r.d, e := h.e + r.e }

/-- `n` blocks in order. -/
def sha1Blocks : Nat → List Word → Sha1State → Sha1State
  | 0, _, h => h
  | n + 1, ws, h => sha1Blocks n (ws.drop 16) (sha1Block h (ws.take 16))

/-- The initial chaining words. -/
def sha1Init : Sha1State :=
  { a := 0x67452301#32, b := 0xEFCDAB89#32, c := 0x98BADCFE#32, d := 0x10325476#32, e := 0xC3D2E1F0#32 }

/-- SHA-1 of a byte sequence; byte 0 is the first byte of the big-endian digest (42_checksum.md R183). -/
def sha1 (m : List Byte) : Vector Byte 20 :=
  let ws := beWords (sha1Pad m)
  let h := sha1Blocks (ws.length / 16) ws sha1Init
  let bytes := [h.a, h.b, h.c, h.d, h.e].flatMap wordBytes
  Vector.ofFn fun j => bytes.getD j.val 0x00#8

/-- The type of the parameter DIGEST160 (00_scope.md R9; 42_checksum.md R183): a total function from byte sequences to
20 bytes. -/
abbrev Digest160 := List Byte → Vector Byte 20

/-- DIGEST160 of a configuration (42_checksum.md R183): a total function of the message alone. -/
def digest160 (d : DigestChoice) : Digest160 :=
  match d with
  | .sha1 => sha1
  | .other n => Config.otherDigest n

end Sys2Proof.Machine
end

