-- ==== Sys2Proof/Machine/State.lean ====
section
/-! DEFINITION. The state of VW-CORE, as 10_state.md gives it, with the state after reset, the reasons a
step can stop, and the host's accesses as data. -/

namespace Sys2Proof.Machine

/-- The SECRET store (10_state.md R29), the block's only byte store: (index, byte) pairs in one canonical form. -/
abbrev Memory := List Host.Cell

/-- What an unlisted index reads as: 0x00, the reset contents of every SECRET byte (10_state.md R29;
70_reset_and_hazards.md R301). -/
def Memory.unlisted : Byte := 0x00#8

/-- The canonical form: indices strictly rising, and no entry equal to what an unlisted index reads as. -/
abbrev Memory.wf (m : Memory) : Prop :=
  (m.map Prod.fst).Pairwise (· < ·) ∧ ∀ cell ∈ m, cell.2 ≠ Memory.unlisted

/-- The registers of the host window (20_memory.md R63). -/
inductive HostReg where
  | id | cmd | status | argCount | argVersion | argAddons | unitSeed | batchSeed | dinLo | dinHi
  | doutLo | doutHi | ckLo | ckHi | secretLen | config
  | digest (n : Fin 5)
  | serial (n : Fin 8)
  deriving DecidableEq, Repr

/-- What can arrive at the block's port: a read or a write of `size` bytes at a byte offset of the 128-byte window
(20_memory.md R60, R61), or the platform asserting reset (70_reset_and_hazards.md R300). A write of another size than
4 carries a word that nothing reads: the access is rejected (log entry 18). -/
inductive HostEvent where
  | read (off : BitVec 7) (size : Nat)
  | write (off : BitVec 7) (size : Nat) (value : Word)
  | reset
  deriving DecidableEq, Repr

/-- The state of one instance of VW-CORE. -/
structure State where
  /-- The configuration (00_scope.md R9): an argument of the model, which no step changes (10_state.md R43;
  70_reset_and_hazards.md R300; log entry 4). -/
  cfg         : Config
  /-- REC, the record register file (10_state.md R20). -/
  recReg      : Record
  /-- PREC, the permuted-record register file (10_state.md R24). -/
  precReg     : Record
  /-- CK, the checksum register (10_state.md R25). -/
  ck          : BitVec 40
  /-- DG, the digest register (10_state.md R26). -/
  dg          : Vector Byte 20
  /-- SERIAL, the output buffer (10_state.md R27). -/
  serial      : Vector Byte 29
  /-- SERIAL_VALID, STATUS bit 3 (10_state.md R28). -/
  serialValid : Bool
  /-- SECRET, the product-secret store (10_state.md R29). -/
  secret      : Memory
  /-- SECRET_LEN (10_state.md R29). -/
  secretLen   : BitVec 8
  /-- DIN (10_state.md R30). -/
  din         : BitVec 64
  /-- DOUT (10_state.md R31). -/
  dout        : BitVec 64
  /-- ARG_COUNT (10_state.md R32). -/
  argCount    : Word
  /-- ARG_VERSION (10_state.md R33). -/
  argVersion  : Word
  /-- ARG_ADDONS: FLAGS [4:0], NADD [12:8] (10_state.md R34). -/
  argAddons   : Word
  /-- UNIT_SEED (10_state.md R35). -/
  unitSeed    : Word
  /-- BATCH_SEED (10_state.md R35). -/
  batchSeed   : Word
  /-- STATUS bit 0, OK (10_state.md R36). -/
  ok          : Bool
  /-- STATUS bit 1, ERR (10_state.md R36). -/
  err         : Bool
  /-- STATUS bit 2, STICKY (10_state.md R36). -/
  sticky      : Bool
  /-- STATUS bits 7:4, ERRCODE (10_state.md R36). -/
  errCode     : BitVec 4
  /-- LASTCMD (10_state.md R37). -/
  lastCmd     : Word
  /-- The model's own: what has arrived at the port and is not yet performed, oldest first (20_memory.md R73; log
  entry 2). -/
  pending     : List HostEvent
  /-- The model's own: the word the last performed access returned to the host; none for a write or a reset (log
  entry 2). -/
  reply       : Option Word
  deriving DecidableEq, Repr

/-- Why a step stops with a fault. -/
inductive Fault where
  /-- Raised by a rejected host access (60_exceptions.md R276): a width other than 32 bits, a misaligned or unmapped
  offset, or a write to a read-only register. The access has no effect on any state. Safe: it is the spec's own
  outcome of that access (log entry 3). -/
  | busError (off : BitVec 7)
  deriving DecidableEq, Repr

/-- Why the model refuses. -/
inductive Refusal where
  /-- Raised by exec for a command that has no meaning yet. Safe; no arm raises it. -/
  | notModelled (mnemonic : String)
  /-- Raised by powerOn for parameters that are no configuration (44_encode.md R233; 93_implementation_defined.md I7).
  Safe: the spec asks for it. -/
  | illFormedConfiguration
  deriving DecidableEq, Repr

/-- Every register at its reset value (70_reset_and_hazards.md R301), under a given configuration. Nothing is pending
and no access has been answered (DESIGN CHOICE, log entry 2). -/
def State.resetWith (cfg : Config) : State :=
  { cfg := cfg
    recReg := 0#125
    precReg := 0#125
    ck := 0#40
    dg := Vector.replicate 20 0x00#8
    serial := Vector.replicate 29 0x00#8
    serialValid := false
    secret := []
    secretLen := 0#8
    din := 0#64
    dout := 0#64
    argCount := 0#32
    argVersion := 0#32
    argAddons := 0x0000051F#32
    unitSeed := 0#32
    batchSeed := 0#32
    ok := false
    err := false
    sticky := false
    errCode := 0#4
    lastCmd := 0#32
    pending := []
    reply := none }

/-- The machine right after reset (70_reset_and_hazards.md R300, R301), under the configuration of 00_scope.md R9. -/
def State.reset : State := State.resetWith Config.default

end Sys2Proof.Machine
end

