-- ==== Sys2Proof/Machine/Operands.lean ====
section
/-! DEFINITION. Bit fields, the named fields of the record, and the operands a command reads from the host's
registers (00_scope.md R12, R13, R17; 10_state.md R30 to R35). -/

namespace Sys2Proof

/-- Start offset of a named field (00_scope.md R17). -/
def Field.start : Field → Nat
  | .hash => 0
  | .addonFlags => 40
  | .count => 45
  | .support => 61
  | .subscription => 63
  | .expiration => 66
  | .issue => 68
  | .unitId => 80
  | .version => 105
  | .batchId => 110

/-- Width of a named field (00_scope.md R17). -/
def Field.width : Field → Nat
  | .hash => 40
  | .addonFlags => 5
  | .count => 16
  | .support => 2
  | .subscription => 3
  | .expiration => 2
  | .issue => 12
  | .unitId => 25
  | .version => 5
  | .batchId => 15

namespace Machine

/-- The number whose bit `k` is `f k` for `k < n`, the sum of `f k · 2^k`: the bits are OR-ed into place (00_scope.md R14;
42_checksum.md R188: OR and addition agree on disjoint lanes). -/
def sumBits (f : Nat → Bool) : Nat → Nat
  | 0 => 0
  | n + 1 => sumBits f n ||| (f n).toNat <<< n

/-- The bit array of `n` cells whose cell `k` is `f k`. (Irreducible to the elaborator, so that it does not unfold 125
cells when it compares two states; the kernel computes it, and `getLsbD_ofCells` says what it is.) -/
@[irreducible] def ofCells (n : Nat) (f : Nat → Bool) : BitVec n := BitVec.ofNat n (sumBits f n)

/-- `getf(A, s, w)`: cells `s .. s+w-1` of a record as an unsigned little-endian value (40_record_access.md R122). -/
def getf (a : Record) (s w : Nat) : BitVec w := a.extractLsb' s w

/-- `setf(A, s, w, v)`: cell `s+i` gets bit `i` of the value for `i < w`; every other cell is unchanged
(40_record_access.md R122). -/
def setf {n : Nat} (a : Record) (s w : Nat) (v : BitVec n) : Record :=
  ofCells 125 fun k => if s ≤ k ∧ k < s + w then v.getLsbD (k - s) else a.getLsbD k

/-- `setf` at a named field (00_scope.md R17). -/
def setField {n : Nat} (a : Record) (f : Field) (v : BitVec n) : Record := setf a f.start f.width v

/-- `count = sint32(ARG_COUNT)` (10_state.md R32). -/
def countOf (s : State) : Int := s.argCount.toInt

/-- `version = sint32(ARG_VERSION)` (10_state.md R33). -/
def versionOf (s : State) : Int := s.argVersion.toInt

/-- `FLAGS = ARG_ADDONS[4:0]` (10_state.md R34). -/
def flagsOf (s : State) : BitVec 5 := s.argAddons.extractLsb' 0 5

/-- `NADD = ARG_ADDONS[12:8]` (10_state.md R34). -/
def naddOf (s : State) : BitVec 5 := s.argAddons.extractLsb' 8 5

/-- UnitId, `UNIT_SEED[24:0]` (10_state.md R35). -/
def unitIdOf (s : State) : BitVec 25 := s.unitSeed.extractLsb' 0 25

/-- BatchId, `BATCH_SEED[14:0]` (10_state.md R35). -/
def batchIdOf (s : State) : BitVec 15 := s.batchSeed.extractLsb' 0 15

end Machine

end Sys2Proof
end

