-- ==== Sys2Proof/Machine/Flags.lean ====
section
/-! DEFINITION. STATUS (10_state.md R36; 60_exceptions.md R270): the error codes and the register as the host
reads it. VW-CORE has no other flags (10_state.md R44). -/

namespace Sys2Proof

/-- ERRCODE of an error (60_exceptions.md R270). -/
def CmdError.code : CmdError → BitVec 4
  | .invalidAddonCount => 1#4
  | .versionOutOfRange => 2#4
  | .countOutOfRange => 3#4
  | .illegalCommand => 4#4
  | .fieldRange => 5#4
  | .secretFull => 6#4

namespace Machine

/-- STATUS as the host reads it (10_state.md R36): OK bit 0, ERR bit 1, STICKY bit 2, SERIAL_VALID bit 3, ERRCODE bits
7:4, and bits 31:8 reserved, read 0. -/
def statusWord (s : State) : Word :=
  0#24 ++ s.errCode ++ BitVec.ofBool s.serialValid ++ BitVec.ofBool s.sticky ++ BitVec.ofBool s.err ++
    BitVec.ofBool s.ok

end Machine

end Sys2Proof
end

