-- ==== Sys2Proof/Machine/Ops.lean ====
section
/-! DEFINITION. The operations every command shares: the SECRET store's bytes, how a command ends, with or without
an error, and how an instance is configured. -/

namespace Sys2Proof.Machine

/-- The byte at an index of the SECRET store (10_state.md R29). -/
def Memory.read : Memory → Nat → Byte
  | [], _ => Memory.unlisted
  | cell :: rest, a => if cell.1 = a then cell.2 else Memory.read rest a

/-- The store without an entry for an index. -/
def Memory.erase (m : Memory) (a : Nat) : Memory := m.filter fun cell => decide (cell.1 ≠ a)

/-- The store with an entry put at its place; the index has none before. -/
def Memory.insert : Memory → Nat → Byte → Memory
  | [], a, b => [(a, b)]
  | cell :: rest, a, b => if a < cell.1 then (a, b) :: cell :: rest else cell :: Memory.insert rest a b

/-- Writing a byte: the canonical form is kept, so writing what an unlisted index reads as removes the entry. -/
def Memory.write (m : Memory) (a : Nat) (b : Byte) : Memory :=
  if b = Memory.unlisted then Memory.erase m a else Memory.insert (Memory.erase m a) a b

/-- The secret: SECRET[0] .. SECRET[SECRET_LEN-1], in order (42_checksum.md R182). -/
def secretBytes (s : State) : List Byte := (List.range s.secretLen.toNat).map fun a => Memory.read s.secret a

/-- A write of REC. -/
def State.setRec (s : State) (r : Record) : State := { s with recReg := r }

/-- A write of PREC. -/
def State.setPrec (s : State) (r : Record) : State := { s with precReg := r }

/-- A write of DOUT. -/
def State.setDout (s : State) (v : BitVec 64) : State := { s with dout := v }

/-- A write of DG and CK. -/
def State.setChecksum (s : State) (d : Vector Byte 20) (c : BitVec 40) : State := { s with dg := d, ck := c }

/-- A write of SERIAL and SERIAL_VALID. -/
def State.setSerial (s : State) (serial : Vector Byte 29) (valid : Bool) : State :=
  { s with serial := serial, serialValid := valid }

/-- A write of SECRET and SECRET_LEN. -/
def State.setSecret (s : State) (m : Memory) (len : BitVec 8) : State := { s with secret := m, secretLen := len }

/-- A write of LASTCMD (10_state.md R37). -/
def State.setLastCmd (s : State) (c : Word) : State := { s with lastCmd := c }

/-- A write of the answer to the host's access. -/
def State.setReply (s : State) (v : Word) : State := { s with reply := some v }

/-- `raise CmdError(code)` (60_exceptions.md R271): what a command that ends in an error writes to STATUS, and all it
writes. VW-CORE has no trap to take and none to return from (R279): this is its report of an error. -/
def State.raiseCmdError (s : State) (e : CmdError) : State :=
  { s with ok := false, err := true, sticky := true, errCode := e.code }

/-- What a command that completes writes to STATUS (60_exceptions.md R272). -/
def State.complete (s : State) : State := { s with ok := true, err := false, errCode := 0#4 }

/-- A host write to STATUS (20_memory.md R65): a 1 in bit 2 clears STICKY, and nothing else changes. It is this block's
way of clearing an error report (60_exceptions.md R279). -/
def State.writeStatus (s : State) (v : Word) : State := { s with sticky := s.sticky && !v.getLsbD 2 }

/-- A command's end: its effect and STATUS of a completion, or its error. No command error is fatal (60_exceptions.md
R274), so both are a next state. -/
def endCommand (s : State) (result : Except CmdError State) : Host.Outcome State Fault Refusal :=
  match result with
  | .ok t => .next t.complete
  | .error e => .next (s.raiseCmdError e)

/-- Configuring an instance (44_encode.md R233): well-formed parameters give the machine after power-on reset; any
others are refused, not run. -/
def powerOn (p : Params) : Host.Outcome State Fault Refusal :=
  if h : p.WellFormed then .next (State.resetWith { p with wellFormed := h }) else .refused .illFormedConfiguration

end Sys2Proof.Machine
end

