-- ==== Sys2Proof/Machine/Checksum.lean ====
section
/-! DEFINITION. The checksum engine (42_checksum.md): SKCLR, SKPUSH, CHECKSUM, WRHASH. -/

namespace Sys2Proof.Machine

/-- `recbit(0..127)` (42_checksum.md R185, R186): the record's cells, and CK_PAD as cells 125, 126, 127. -/
def windowCells (cfg : Config) (r : Record) : BitVec 128 := cfg.ckPad ++ r

/-- Window byte `i`: cells `40+8i .. 47+8i`, cell `40+8i` as bit 0 (42_checksum.md R185). -/
def windowByte (cfg : Config) (r : Record) (i : Nat) : Byte := (windowCells cfg r).extractLsb' (40 + 8 * i) 8

/-- The digest message (42_checksum.md R184): the 11 window bytes, the secret, and HASH_SEED. -/
def digestMessage (s : State) : List Byte :=
  (List.range 11).map (windowByte s.cfg s.recReg) ++ secretBytes s ++ s.cfg.hashSeed.toList

/-- `g[k]`: the XOR of four digest bytes at a stride of 5 (42_checksum.md R187). -/
def foldLane (d : Vector Byte 20) (k : Fin 5) : Byte := d[k.val] ^^^ d[k.val + 5] ^^^ d[k.val + 10] ^^^ d[k.val + 15]

/-- The fold of a digest to 40 bits (42_checksum.md R187). -/
def fold (d : Vector Byte 20) : BitVec 40 :=
  (foldLane d 0).setWidth 40 ||| (foldLane d 1).setWidth 40 <<< 8 ||| (foldLane d 2).setWidth 40 <<< 16 |||
    (foldLane d 3).setWidth 40 <<< 24 ||| (foldLane d 4).setWidth 40 <<< 32

/-- CHECKSUM's body (42_checksum.md R189) under any digest: DG and CK. -/
def State.checksumBodyWith (D : Digest160) (s : State) : State :=
  let d := D (digestMessage s)
  s.setChecksum d (fold d)

/-- CHECKSUM's body (42_checksum.md R189) under the configuration's digest. -/
def State.checksumBody (s : State) : State := s.checksumBodyWith (digest160 s.cfg.digest)

/-- WRHASH's body (42_checksum.md R190): CK into the Hash field. -/
def State.writeHashBody (s : State) : State := s.setRec (setField s.recReg .hash s.ck)

/-- SKCLR (42_checksum.md R180): the bytes of SECRET keep their values. -/
def execSkclr (s : State) : Host.Outcome State Fault Refusal := endCommand s (.ok (s.setSecret s.secret 0#8))

/-- SKPUSH (42_checksum.md R181). -/
def execSkpush (s : State) : Host.Outcome State Fault Refusal :=
  endCommand s
    (if s.secretLen.toNat = s.cfg.secretMax then .error .secretFull
     else
      .ok (s.setSecret (Memory.write s.secret s.secretLen.toNat (s.din.extractLsb' 0 8)) (s.secretLen + 1#8)))

/-- CHECKSUM (42_checksum.md R189) under any digest. -/
def execChecksumWith (D : Digest160) (s : State) : Host.Outcome State Fault Refusal :=
  endCommand s (.ok (s.checksumBodyWith D))

/-- CHECKSUM (42_checksum.md R189). -/
def execChecksum (s : State) : Host.Outcome State Fault Refusal := execChecksumWith (digest160 s.cfg.digest) s

/-- WRHASH (42_checksum.md R190). -/
def execWrhash (s : State) : Host.Outcome State Fault Refusal := endCommand s (.ok s.writeHashBody)

end Sys2Proof.Machine
end

