-- ==== Sys2Proof/Machine/Encoder.lean ====
section
/-! DEFINITION. The base-32 encoder (44_encode.md): ENCODE. -/

namespace Sys2Proof.Machine

/-- The dash (00_scope.md R15). -/
def dash : Byte := 0x2D#8

/-- The positions of the dashes (44_encode.md R231). -/
def dashPositions : List (Fin 29) := [5, 11, 17, 23]

/-- The character position of a symbol slot, `s + (s div 5)` (44_encode.md R231). -/
def slotPosition (slot : Fin 25) : Fin 29 := ⟨slot.val + slot.val / 5, by omega⟩

/-- Group `i` of the permuted record, cells `5i .. 5i+4` (44_encode.md R230). -/
def group (p : Record) (i : Fin 25) : BitVec 5 := getf p (5 * i.val) 5

/-- The character of a group value (44_encode.md R232). -/
def symbolOf (cfg : Config) (v : BitVec 5) : Byte := cfg.alphabet[v.toNat]'v.isLt

/-- SERIAL with the dashes written (44_encode.md R234). -/
def writeDashes (serial : Vector Byte 29) : Vector Byte 29 :=
  dashPositions.foldl (fun out q => out.set q.val dash q.isLt) serial

/-- SERIAL with one group's symbol written at its slot (44_encode.md R232). -/
def writeSymbol (cfg : Config) (p : Record) (out : Vector Byte 29) (i : Fin 25) : Vector Byte 29 :=
  let position := slotPosition (cfg.slotMap[i.val]'i.isLt)
  out.set position.val (symbolOf cfg (group p i)) position.isLt

/-- SERIAL after ENCODE: the dashes, then every group in order (44_encode.md R234). -/
def encodeSerial (cfg : Config) (p : Record) (serial : Vector Byte 29) : Vector Byte 29 :=
  (List.finRange 25).foldl (writeSymbol cfg p) (writeDashes serial)

/-- ENCODE's body (44_encode.md R234). -/
def State.encodeBody (s : State) : State := s.setSerial (encodeSerial s.cfg s.precReg s.serial) true

/-- ENCODE (44_encode.md R234). -/
def execEncode (s : State) : Host.Outcome State Fault Refusal := endCommand s (.ok s.encodeBody)

end Sys2Proof.Machine
end

