-- ==== Sys2Proof/Machine/Packer.lean ====
section
/-! DEFINITION. The field packer (41_packing.md): VALIDATE and PACK. -/

namespace Sys2Proof.Machine

/-- `check()` (41_packing.md R150): the first failing check decides the error. -/
def checkArgs (s : State) : Except CmdError Unit :=
  if (naddOf s).toNat ≠ 5 then .error .invalidAddonCount
  else if versionOf s < 0 ∨ versionOf s > 31 then .error .versionOutOfRange
  else if countOf s < 0 ∨ countOf s > 65535 then .error .countOutOfRange
  else .ok ()

/-- The fields PACK writes at every version (41_packing.md R152): UnitId, Version, BatchId, into a zero record. -/
def packAlways (s : State) : Record :=
  setField (setField (setField 0#125 .unitId (unitIdOf s)) .version (s.argVersion.extractLsb' 0 5)) .batchId
    (batchIdOf s)

/-- The fields PACK writes from version 6 on (41_packing.md R152, R153): Count, and four reserved fields as zero. -/
def packCount (s : State) (r : Record) : Record :=
  setField (setField (setField (setField (setField r .count (s.argCount.extractLsb' 0 16)) .support 0#2)
    .subscription 0#3) .expiration 0#2) .issue 0#12

/-- The field PACK writes from version 8 on (41_packing.md R152): one addon flag per bit, ascending. -/
def packFlags (s : State) (r : Record) : Record := setField r .addonFlags (flagsOf s)

/-- The record PACK leaves, once the checks pass (41_packing.md R152, R154). -/
def packedRecord (s : State) : Record :=
  let always := packAlways s
  let gated := if 6 ≤ versionOf s then packCount s always else always
  if 8 ≤ versionOf s then packFlags s gated else gated

/-- PACK's body after its check (41_packing.md R152). -/
def State.packBody (s : State) : State := s.setRec (packedRecord s)

/-- VALIDATE (41_packing.md R151). -/
def execValidate (s : State) : Host.Outcome State Fault Refusal :=
  endCommand s ((checkArgs s).map fun _ => s)

/-- PACK (41_packing.md R152). -/
def execPack (s : State) : Host.Outcome State Fault Refusal :=
  endCommand s ((checkArgs s).map fun _ => s.packBody)

end Sys2Proof.Machine
end

