-- ==== Sys2Proof/Machine/Permuter.lean ====
section
/-! DEFINITION. The bit-stream permuter (43_permute.md): PERMUTE. -/

namespace Sys2Proof.Machine

/-- The three read cursors over the record (43_permute.md R210). -/
structure Cursors where
  a : Nat
  b : Nat
  c : Nat
  deriving DecidableEq, Repr

/-- The source a column reads and the cursors after it (43_permute.md R210): cursor A is tested first, then B, then C
(90_conflicts.md C3). -/
def selectCursor (column : Nat) (k : Cursors) : Nat × Cursors :=
  if column % 3 = 0 ∨ column = 20 then (k.a, { k with a := k.a + 1 })
  else if column % 2 = 1 ∨ column = 16 then (k.b, { k with b := k.b + 1 })
  else (k.c, { k with c := k.c + 1 })

/-- The sources of `n` destinations from destination `d` on: column `d mod 21` of block `d div 21`. -/
def cursorSources : Nat → Nat → Cursors → List Nat
  | 0, _, _ => []
  | n + 1, d, k => (selectCursor (d % 21) k).1 :: cursorSources n (d + 1) (selectCursor (d % 21) k).2

/-- The sources of destinations 0..104: five blocks of 21 columns, with the cursors at 0, 40 and 80 first
(43_permute.md R210). -/
def interleavedSources : List Nat := cursorSources 105 0 { a := 0, b := 40, c := 80 }

/-- `src[d]` (43_permute.md R210): destinations 105..124 are copied unchanged. -/
def src (d : Nat) : Nat := interleavedSources.getD d d

/-- The permuted record: cell `d` is cell `src[d]` of the original (43_permute.md R213). -/
def permuteRecord (r : Record) : Record := ofCells 125 fun d => r.getLsbD (src d)

/-- PERMUTE's body (43_permute.md R213): every read is from the original REC. -/
def State.permuteBody (s : State) : State := s.setPrec (permuteRecord s.recReg)

/-- PERMUTE (43_permute.md R213). -/
def execPermute (s : State) : Host.Outcome State Fault Refusal := endCommand s (.ok s.permuteBody)

end Sys2Proof.Machine
end

