-- ==== Sys2Proof/Machine/Generate.lean ====
section
/-! DEFINITION. The orchestrator (45_generate.md): GENERATE. -/

namespace Sys2Proof.Machine

/-- The pipeline after its check, in order (45_generate.md R250), under any digest: Pack, ComputeChecksum, Pack(hash),
Permute, Encode. -/
def State.pipelineBodyWith (D : Digest160) (s : State) : State :=
  (s.packBody.checksumBodyWith D).writeHashBody.permuteBody.encodeBody

/-- The pipeline under the configuration's digest. -/
def State.pipelineBody (s : State) : State := s.pipelineBodyWith (digest160 s.cfg.digest)

/-- What a failed check clears (45_generate.md R252), so that a stale serial cannot pass as this call's output. -/
def State.clearSerial (s : State) : State := s.setSerial (Vector.replicate 29 0x00#8) false

/-- GENERATE (45_generate.md R250, R252) under any digest: one step, whatever its phases (10_state.md R46). -/
def execGenerateWith (D : Digest160) (s : State) : Host.Outcome State Fault Refusal :=
  match checkArgs s with
  | .ok _ => endCommand s (.ok (s.pipelineBodyWith D))
  | .error e => endCommand s.clearSerial (.error e)

/-- GENERATE (45_generate.md R250, R252). -/
def execGenerate (s : State) : Host.Outcome State Fault Refusal := execGenerateWith (digest160 s.cfg.digest) s

end Sys2Proof.Machine
end

