-- ==== Sys2Proof/Machine/RecordAccess.lean ====
section
/-! DEFINITION. The record access commands (40_record_access.md): NOP, CLEAR, GET, SET, GETP, SETP. -/

namespace Sys2Proof.Machine

/-- A field command's range check (30_encoding.md R97): FIELD_RANGE before anything is written. -/
def withSpan (start : BitVec 7) (width : BitVec 6) (effect : State) : Except CmdError State :=
  if SpanInRecord start width then .ok effect else .error .fieldRange

/-- `zext_64(getf(A, s, w))` (40_record_access.md R123, R125). -/
def readSpan (a : Record) (start : BitVec 7) (width : BitVec 6) : BitVec 64 :=
  (getf a start.toNat width.toNat).setWidth 64

/-- `setf(A, s, w, DIN)` (40_record_access.md R124, R126). -/
def writeSpan (a : Record) (start : BitVec 7) (width : BitVec 6) (v : BitVec 64) : Record :=
  setf a start.toNat width.toNat v

/-- NOP (40_record_access.md R120). -/
def execNop (s : State) : Host.Outcome State Fault Refusal := endCommand s (.ok s)

/-- CLEAR (40_record_access.md R121). -/
def execClear (s : State) : Host.Outcome State Fault Refusal := endCommand s (.ok (s.setRec 0#125))

/-- GET start, width (40_record_access.md R123). -/
def execGet (start : BitVec 7) (width : BitVec 6) (s : State) : Host.Outcome State Fault Refusal :=
  endCommand s (withSpan start width (s.setDout (readSpan s.recReg start width)))

/-- SET start, width (40_record_access.md R124). -/
def execSet (start : BitVec 7) (width : BitVec 6) (s : State) : Host.Outcome State Fault Refusal :=
  endCommand s (withSpan start width (s.setRec (writeSpan s.recReg start width s.din)))

/-- GETP start, width (40_record_access.md R125). -/
def execGetp (start : BitVec 7) (width : BitVec 6) (s : State) : Host.Outcome State Fault Refusal :=
  endCommand s (withSpan start width (s.setDout (readSpan s.precReg start width)))

/-- SETP start, width (40_record_access.md R126). -/
def execSetp (start : BitVec 7) (width : BitVec 6) (s : State) : Host.Outcome State Fault Refusal :=
  endCommand s (withSpan start width (s.setPrec (writeSpan s.precReg start width s.din)))

end Sys2Proof.Machine
end

