-- ==== Sys2Proof/Machine/Dispatch.lean ====
section
/-! DEFINITION. Which meaning runs for which command, one arm per constructor. -/

namespace Sys2Proof.Machine

def exec (i : Instr) (s : State) : Host.Outcome State Fault Refusal :=
  match i with
  | .nop => Sys2Proof.Machine.execNop s
  | .clear => Sys2Proof.Machine.execClear s
  | .get start width => Sys2Proof.Machine.execGet start width s
  | .set start width => Sys2Proof.Machine.execSet start width s
  | .getp start width => Sys2Proof.Machine.execGetp start width s
  | .setp start width => Sys2Proof.Machine.execSetp start width s
  | .validate => Sys2Proof.Machine.execValidate s
  | .pack => Sys2Proof.Machine.execPack s
  | .checksum => Sys2Proof.Machine.execChecksum s
  | .wrhash => Sys2Proof.Machine.execWrhash s
  | .permute => Sys2Proof.Machine.execPermute s
  | .encode => Sys2Proof.Machine.execEncode s
  | .generate => Sys2Proof.Machine.execGenerate s
  | .skclr => Sys2Proof.Machine.execSkclr s
  | .skpush => Sys2Proof.Machine.execSkpush s

end Sys2Proof.Machine
end

