-- ==== Sys2Proof/Machine/HostAccess.lean ====
section
/-! DEFINITION. The host register window (20_memory.md): the register map, byte order, reads and writes, a write to CMD,
bus errors (60_exceptions.md R276 to R278), reset (70_reset_and_hazards.md R300), and what the platform and the host's
driver do at the block's edge. -/

namespace Sys2Proof.Machine

/-- The register map (20_memory.md R63): the register at a byte offset; none for an offset that is unmapped (R64) or no
multiple of 4. -/
def regAt (off : BitVec 7) : Option HostReg :=
  match off.toNat with
  | 0x00 => some .id
  | 0x04 => some .cmd
  | 0x08 => some .status
  | 0x0C => some .argCount
  | 0x10 => some .argVersion
  | 0x14 => some .argAddons
  | 0x18 => some .unitSeed
  | 0x1C => some .batchSeed
  | 0x20 => some .dinLo
  | 0x24 => some .dinHi
  | 0x28 => some .doutLo
  | 0x2C => some .doutHi
  | 0x30 => some .ckLo
  | 0x34 => some .ckHi
  | 0x38 => some .secretLen
  | 0x3C => some .config
  | 0x40 => some (.digest 0)
  | 0x44 => some (.digest 1)
  | 0x48 => some (.digest 2)
  | 0x4C => some (.digest 3)
  | 0x50 => some (.digest 4)
  | 0x60 => some (.serial 0)
  | 0x64 => some (.serial 1)
  | 0x68 => some (.serial 2)
  | 0x6C => some (.serial 3)
  | 0x70 => some (.serial 4)
  | 0x74 => some (.serial 5)
  | 0x78 => some (.serial 6)
  | 0x7C => some (.serial 7)
  | _ => none

/-- The byte offset of a register (20_memory.md R63). -/
def offsetOf : HostReg → BitVec 7
  | .id => 0x00#7
  | .cmd => 0x04#7
  | .status => 0x08#7
  | .argCount => 0x0C#7
  | .argVersion => 0x10#7
  | .argAddons => 0x14#7
  | .unitSeed => 0x18#7
  | .batchSeed => 0x1C#7
  | .dinLo => 0x20#7
  | .dinHi => 0x24#7
  | .doutLo => 0x28#7
  | .doutHi => 0x2C#7
  | .ckLo => 0x30#7
  | .ckHi => 0x34#7
  | .secretLen => 0x38#7
  | .config => 0x3C#7
  | .digest n => BitVec.ofNat 7 (0x40 + 4 * n.val)
  | .serial n => BitVec.ofNat 7 (0x60 + 4 * n.val)

/-- Four bytes as a register, byte 0 in bits 7:0 (20_memory.md R66). -/
def wordOfBytes (b0 b1 b2 b3 : Byte) : Word := b3 ++ b2 ++ b1 ++ b0

/-- Byte `k` of SERIAL as the host reads it: 0x00 beyond the 29 bytes (20_memory.md R67). -/
def serialByte (s : State) (k : Nat) : Byte := if h : k < 29 then s.serial[k] else 0x00#8

/-- ID (10_state.md R38). -/
def idWord : Word := 0x56570007#32

/-- CONFIG (10_state.md R39): SECRET_MAX in bits 7:0, CK_PAD in bits 10:8, the rest 0. -/
def configWord (cfg : Config) : Word := 0#21 ++ cfg.ckPad ++ BitVec.ofNat 8 cfg.secretMax

/-- What a read of a register returns (20_memory.md R62, R63, R66, R67). -/
def readReg (r : HostReg) (s : State) : Word :=
  match r with
  | .id => idWord
  | .cmd => s.lastCmd
  | .status => statusWord s
  | .argCount => s.argCount
  | .argVersion => s.argVersion
  | .argAddons => s.argAddons
  | .unitSeed => s.unitSeed
  | .batchSeed => s.batchSeed
  | .dinLo => s.din.extractLsb' 0 32
  | .dinHi => s.din.extractLsb' 32 32
  | .doutLo => s.dout.extractLsb' 0 32
  | .doutHi => s.dout.extractLsb' 32 32
  | .ckLo => s.ck.extractLsb' 0 32
  | .ckHi => (s.ck.extractLsb' 32 8).setWidth 32
  | .secretLen => s.secretLen.setWidth 32
  | .config => configWord s.cfg
  | .digest n => wordOfBytes s.dg[4 * n.val] s.dg[4 * n.val + 1] s.dg[4 * n.val + 2] s.dg[4 * n.val + 3]
  | .serial n =>
    wordOfBytes (serialByte s (4 * n.val)) (serialByte s (4 * n.val + 1)) (serialByte s (4 * n.val + 2))
      (serialByte s (4 * n.val + 3))

/-- What runs a decoded command: `exec`, or `execWith` a given digest. -/
abbrev Executor := Instr → State → Host.Outcome State Fault Refusal

/-- A command word written to CMD (20_memory.md R62, R70): LASTCMD gets the word, legal or not, and the word is decoded
and executed, or its decoding error reported (30_encoding.md R97). -/
def runCommandBy (run : Executor) (c : Word) (s : State) : Host.Outcome State Fault Refusal :=
  match decode c with
  | .ok i => run i (s.setLastCmd c)
  | .error e => .next ((s.setLastCmd c).raiseCmdError e)

/-- A command word written to CMD, under the configuration's digest. -/
def runCommand (c : Word) (s : State) : Host.Outcome State Fault Refusal := runCommandBy exec c s

/-- A write to a register (20_memory.md R62, R65, R70): a read-only register rejects it. -/
def writeRegBy (run : Executor) (r : HostReg) (v : Word) (s : State) : Host.Outcome State Fault Refusal :=
  match r with
  | .cmd => runCommandBy run v s
  | .status => .next (s.writeStatus v)
  | .argCount => .next { s with argCount := v }
  | .argVersion => .next { s with argVersion := v }
  | .argAddons => .next { s with argAddons := v }
  | .unitSeed => .next { s with unitSeed := v }
  | .batchSeed => .next { s with batchSeed := v }
  | .dinLo => .next { s with din := s.din.extractLsb' 32 32 ++ v }
  | .dinHi => .next { s with din := v ++ s.din.extractLsb' 0 32 }
  | .id => .fault (.busError (offsetOf .id))
  | .doutLo => .fault (.busError (offsetOf .doutLo))
  | .doutHi => .fault (.busError (offsetOf .doutHi))
  | .ckLo => .fault (.busError (offsetOf .ckLo))
  | .ckHi => .fault (.busError (offsetOf .ckHi))
  | .secretLen => .fault (.busError (offsetOf .secretLen))
  | .config => .fault (.busError (offsetOf .config))
  | .digest n => .fault (.busError (offsetOf (.digest n)))
  | .serial n => .fault (.busError (offsetOf (.serial n)))

/-- A write to a register, under the configuration's digest. -/
def writeReg (r : HostReg) (v : Word) (s : State) : Host.Outcome State Fault Refusal := writeRegBy exec r v s

/-- The register a legal access reaches (20_memory.md R61, R64): 4 bytes at a mapped multiple of 4. -/
def accessReg (off : BitVec 7) (size : Nat) : Option HostReg :=
  if size ≠ 4 ∨ off.toNat % 4 ≠ 0 then none else regAt off

/-- One event at the port, performed whole (20_memory.md R72). BusError is checked at the access, before any command is
decoded (60_exceptions.md R278). Reset sets every register and leaves the configuration and what arrives later
(70_reset_and_hazards.md R300; log entry 15). -/
def performBy (run : Executor) (e : HostEvent) (s : State) : Host.Outcome State Fault Refusal :=
  match e with
  | .read off size =>
    match accessReg off size with
    | some r => .next (s.setReply (readReg r s))
    | none => .fault (.busError off)
  | .write off size v =>
    match accessReg off size with
    | some r => writeRegBy run r v s
    | none => .fault (.busError off)
  | .reset => .next { State.resetWith s.cfg with pending := s.pending }

/-- One event at the port, under the configuration's digest. -/
def perform (e : HostEvent) (s : State) : Host.Outcome State Fault Refusal := performBy exec e s

/-- The state with the oldest pending event taken off, and no answer yet. -/
def State.accept (s : State) : State := { s with pending := s.pending.tail, reply := none }

/-- The oldest pending event, performed; with none pending the block holds its state (70_reset_and_hazards.md R302;
60_exceptions.md R282; log entry 1). -/
def performNextBy (run : Executor) (s : State) : Host.Outcome State Fault Refusal :=
  match s.pending with
  | [] => .next s
  | e :: _ => performBy run e s.accept

/-- The oldest pending event, under the configuration's digest. -/
def performNext (s : State) : Host.Outcome State Fault Refusal := performNextBy exec s

/-- The write to CMD that executes a command word. -/
def cmdWrite (c : Word) : HostEvent := .write (offsetOf .cmd) 4 c

/-- An access on the platform's bus (20_memory.md R60, R64): inside the window it arrives at the port, at its offset
from BASE; outside, it is the platform's and never reaches the block (log entry 7). -/
def State.deliver (s : State) (address : Nat) (access : BitVec 7 → HostEvent) : State :=
  if s.cfg.base ≤ address ∧ address < s.cfg.base + 128 then
    { s with pending := s.pending ++ [access (BitVec.ofNat 7 (address - s.cfg.base))] }
  else s

/-- The host driver's string interface (45_generate.md R253): the 29 characters, or the driver's own failure string. -/
def driverString (failString : List Byte) (s : State) : List Byte := if s.ok then s.serial.toList else failString

end Sys2Proof.Machine
end

