-- ==== Sys2Proof/Machine/Step.lean ====
section
/-! DEFINITION. One step of the machine: one event at the port. -/

namespace Sys2Proof.Machine

/-- One step (20_memory.md R72, R73; 70_reset_and_hazards.md R313): the oldest pending host access or reset, whole. -/
def step (s : State) : Host.Outcome State Fault Refusal := performNext s

/-- The state in which the next step runs a command word: the host's write of it to CMD is put before everything
pending. VW-CORE fetches nothing (10_state.md R45), so this write is where a command comes from (log entry 2). -/
def State.withFetchWord (s : State) (nbits w : Nat) : State :=
  { s with pending := cmdWrite (BitVec.ofNat 32 (w % 2 ^ nbits)) :: s.pending }

end Sys2Proof.Machine
end

