-- ==== Sys2Proof/Machine/Assembler.lean ====
section
/-! DEFINITION. The notation of host programs (30_encoding.md R99 to R101), on tokens: a mnemonic and its operands as
numbers (log entry 19). It is the host's tool and no part of the machine. -/

namespace Sys2Proof.Machine

/-- The field commands by their mnemonics (30_encoding.md R99). -/
def fieldCommand : String → Option (BitVec 7 → BitVec 6 → Instr)
  | "GET" => some .get
  | "SET" => some .set
  | "GETP" => some .getp
  | "SETP" => some .setp
  | _ => none

/-- The commands without operands by their mnemonics (30_encoding.md R99). -/
def plainCommand : String → Option Instr
  | "NOP" => some .nop
  | "CLEAR" => some .clear
  | "VALIDATE" => some .validate
  | "PACK" => some .pack
  | "CHECKSUM" => some .checksum
  | "WRHASH" => some .wrhash
  | "PERMUTE" => some .permute
  | "ENCODE" => some .encode
  | "GENERATE" => some .generate
  | "SKCLR" => some .skclr
  | "SKPUSH" => some .skpush
  | _ => none

/-- A line of command syntax (30_encoding.md R99): none where the assembler refuses it. -/
def assemble (mnemonic : String) (operands : List Nat) : Option Instr :=
  match operands with
  | [] => plainCommand mnemonic
  | [start, width] =>
    if start + width ≤ 125 ∧ width ≤ 63 then
      (fieldCommand mnemonic).map fun command => command (BitVec.ofNat 7 start) (BitVec.ofNat 6 width)
    else none
  | _ => none

/-- The statement forms of host programs (30_encoding.md R100). -/
inductive Statement where
  | wr (r : HostReg) (v : Word)
  | rd (r : HostReg)
  | cmd (i : Instr)
  deriving DecidableEq, Repr

/-- The access a statement stands for (30_encoding.md R100). -/
def eventOf : Statement → HostEvent
  | .wr r v => .write (offsetOf r) 4 v
  | .rd r => .read (offsetOf r) 4
  | .cmd i => cmdWrite (Sys2Proof.encode i)

/-- `GETF <Field>` (30_encoding.md R101). -/
def getFieldCommand (f : Field) : Instr := .get (BitVec.ofNat 7 f.start) (BitVec.ofNat 6 f.width)

/-- `SETF <Field>` (30_encoding.md R101). -/
def setFieldCommand (f : Field) : Instr := .set (BitVec.ofNat 7 f.start) (BitVec.ofNat 6 f.width)

/-- `GETG <i>` (30_encoding.md R101). -/
def getGroupCommand (i : Fin 25) : Instr := .getp (BitVec.ofNat 7 (5 * i.val)) 5#6

/-- `LDSECRET <bytes>` (30_encoding.md R101). -/
def loadSecret (bytes : List Byte) : List Statement :=
  .cmd .skclr :: bytes.flatMap fun b => [.wr .dinLo (b.setWidth 32), .cmd .skpush]

/-- `RDSERIAL` (30_encoding.md R101). -/
def readSerial : List Statement := (List.finRange 8).map fun n => .rd (.serial n)

/-- `RDCK` (30_encoding.md R101). -/
def readChecksum : List Statement := [.rd .ckLo, .rd .ckHi]

end Sys2Proof.Machine
end

