-- ==== Sys2Proof/Machine/WithDigest.lean ====
section
/-! DEFINITION. The machine with DIGEST160 as an argument of its own type (00_scope.md R9; 42_checksum.md R183): any
function from byte sequences to 20 bytes can be supplied. State is plain data and cannot hold a function, so here the
argument is the digest and the configuration's `digest` is not read; with the argument at the configuration's digest
this is the host's machine (log entry 8). -/

namespace Sys2Proof.Machine

/-- `exec` under a given digest: CHECKSUM and GENERATE are the commands that read it (42_checksum.md R189; 45_generate.md
R250). -/
def execWith (D : Digest160) (i : Instr) (s : State) : Host.Outcome State Fault Refusal :=
  match i with
  | .nop => exec .nop s
  | .clear => exec .clear s
  | .get start width => exec (.get start width) s
  | .set start width => exec (.set start width) s
  | .getp start width => exec (.getp start width) s
  | .setp start width => exec (.setp start width) s
  | .validate => exec .validate s
  | .pack => exec .pack s
  | .checksum => execChecksumWith D s
  | .wrhash => exec .wrhash s
  | .permute => exec .permute s
  | .encode => exec .encode s
  | .generate => execGenerateWith D s
  | .skclr => exec .skclr s
  | .skpush => exec .skpush s

/-- One step under a given digest. -/
def stepWith (D : Digest160) (s : State) : Host.Outcome State Fault Refusal := performNextBy (execWith D) s

/-- The machine with every parameter of 00_scope.md R9 as its argument: the digest, and the other six in the
configuration. -/
def coreWith (D : Digest160) (cfg : Config) : Host.Core :=
  { State := State, Fault := Fault, Refusal := Refusal, step := stepWith D, reset := State.resetWith cfg }

end Sys2Proof.Machine
end

