-- ==== Sys2Proof/Safety.lean ====
section
/-! DEFINITION. What counts as a good state and a good run of VW-CORE, and the spec's tables and rules in the terms the
statements use. -/

namespace Sys2Proof.Machine

/-- NADD is 5 (41_packing.md R150). -/
abbrev NaddOk (s : State) : Prop := s.argAddons.toNat / 256 % 32 = 5

/-- The version lies in 0..31 (41_packing.md R150). -/
abbrev VersionOk (s : State) : Prop := 0 ≤ s.argVersion.toInt ∧ s.argVersion.toInt ≤ 31

/-- The count lies in 0..65535 (41_packing.md R150). -/
abbrev CountOk (s : State) : Prop := 0 ≤ s.argCount.toInt ∧ s.argCount.toInt ≤ 65535

/-- The operands pass the three checks (41_packing.md R150). -/
abbrev ArgsValid (s : State) : Prop := NaddOk s ∧ VersionOk s ∧ CountOk s

/-- The operands fail, and the first failing check has this code (41_packing.md R150; 60_exceptions.md R270). -/
abbrev ArgsFail (s : State) (code : BitVec 4) : Prop :=
  (¬ NaddOk s ∧ code = 1#4) ∨ (NaddOk s ∧ ¬ VersionOk s ∧ code = 2#4) ∨
    (NaddOk s ∧ VersionOk s ∧ ¬ CountOk s ∧ code = 3#4)

/-- `recbit(k)` of the checksum window (42_checksum.md R185, R186). -/
def recbit (s : State) (k : Nat) : Bool := if k ≤ 124 then s.recReg.getLsbD k else s.cfg.ckPad.getLsbD (k - 125)

/-- The digest message as 42_checksum.md R184 and R185 write it. -/
def specMessage (s : State) : List Byte :=
  (List.range 11).map (fun i => BitVec.ofNat 8 (∑ j ∈ Finset.range 8, (recbit s (40 + 8 * i + j)).toNat * 2 ^ j)) ++
    (List.range s.secretLen.toNat).map (fun a => Memory.read s.secret a) ++ s.cfg.hashSeed.toList

/-- The record PACK leaves, cell by cell, from the field table (00_scope.md R17; 41_packing.md R152). -/
def packedCell (s : State) (k : Nat) : Bool :=
  if k < 40 then false
  else if k < 45 then decide (8 ≤ s.argVersion.toInt) && s.argAddons.getLsbD (k - 40)
  else if k < 61 then decide (6 ≤ s.argVersion.toInt) && s.argCount.getLsbD (k - 45)
  else if k < 80 then false
  else if k < 105 then s.unitSeed.getLsbD (k - 80)
  else if k < 110 then s.argVersion.getLsbD (k - 105)
  else if k < 125 then s.batchSeed.getLsbD (k - 110)
  else false

/-- The table `src[d]` for destinations 0..104, as 43_permute.md R212 prints it. -/
def specSourceTable : List Nat :=
  [0, 40, 80, 1, 81, 41, 2, 42, 82, 3, 83, 43, 4, 44, 84, 5, 45, 46, 6, 47, 7,
   8, 48, 85, 9, 86, 49, 10, 50, 87, 11, 88, 51, 12, 52, 89, 13, 53, 54, 14, 55, 15] ++
  [16, 56, 90, 17, 91, 57, 18, 58, 92, 19, 93, 59, 20, 60, 94, 21, 61, 62, 22, 63, 23,
   24, 64, 95, 25, 96, 65, 26, 66, 97, 27, 98, 67, 28, 68, 99, 29, 69, 70, 30, 71, 31] ++
  [32, 72, 100, 33, 101, 73, 34, 74, 102, 35, 103, 75, 36, 76, 104, 37, 77, 78, 38, 79, 39]

/-- `src[d]` by the table: destinations 105..124 are the identity (43_permute.md R212). -/
def specSource (d : Nat) : Nat := specSourceTable.getD d d

/-- The inverse table `dst[s]` for sources 0..104, as 43_permute.md R214 prints it. -/
def specDestinationTable : List Nat :=
  [0, 3, 6, 9, 12, 15, 18, 20, 21, 24, 27, 30, 33, 36, 39, 41, 42, 45, 48, 51,
   54, 57, 60, 62, 63, 66, 69, 72, 75, 78, 81, 83, 84, 87, 90, 93, 96, 99, 102, 104] ++
  [1, 5, 7, 11, 13, 16, 17, 19, 22, 26, 28, 32, 34, 37, 38, 40, 43, 47, 49, 53,
   55, 58, 59, 61, 64, 68, 70, 74, 76, 79, 80, 82, 85, 89, 91, 95, 97, 100, 101, 103] ++
  [2, 4, 8, 10, 14, 23, 25, 29, 31, 35, 44, 46, 50, 52, 56, 65, 67, 71, 73, 77, 86, 88, 92, 94, 98]

/-- `dst[s]` by the table: sources 105..124 are the identity (43_permute.md R214). -/
def specDestination (k : Nat) : Nat := specDestinationTable.getD k k

/-- A SERIAL of the form `XXXXX-XXXXX-XXXXX-XXXXX-XXXXX` over the alphabet's characters (44_encode.md R234, R235). -/
abbrev SerialShape (serial : Vector Byte 29) : Prop :=
  ∀ q : Fin 29, if q.val ∈ [5, 11, 17, 23] then serial[q] = 0x2D#8 else serial[q] ∈ symbolSet

/-- SERIAL holds the encoding of a permuted record (44_encode.md R230 to R234): dashes, and at the position of the slot
of group `i` the character of the group's value. -/
def EncodesRecord (cfg : Config) (p : Record) (serial : Vector Byte 29) : Prop :=
  (∀ q : Fin 29, q.val ∈ [5, 11, 17, 23] → serial[q] = 0x2D#8) ∧
  ∀ (i : Fin 25) (v : Fin 32) (q : Fin 29), v.val = p.toNat / 2 ^ (5 * i.val) % 32 →
    q.val = cfg.slotMap[i].val + cfg.slotMap[i].val / 5 → serial[q] = cfg.alphabet[v]

/-- A word written to CMD ends in an error: LASTCMD gets the word, STATUS the code, and nothing else changes
(60_exceptions.md R271; 10_state.md R37). -/
def EndsInError (c : Word) (code : BitVec 4) : Prop :=
  ∀ s : State, runCommand c s =
    .next { s with lastCmd := c, ok := false, err := true, sticky := true, errCode := code }

/-- A non-field operation code has one legal word, the code itself; every other word with that code is an
ILLEGAL_COMMAND (30_encoding.md R95, R96). -/
def NoOtherWord (op : Nat) : Prop := ∀ c : Word, c.toNat % 32 = op → c.toNat ≠ op → EndsInError c 4#4

/-- The errors of a field command's words: ILLEGAL_COMMAND on a non-zero RSV, FIELD_RANGE beyond cell 124
(30_encoding.md R95, R97). -/
def FieldWordErrors (op : Nat) : Prop :=
  ∀ c : Word, c.toNat % 32 = op →
    (2 ^ 18 ≤ c.toNat → EndsInError c 4#4) ∧
    (c.toNat < 2 ^ 18 → 125 < c.toNat / 32 % 128 + c.toNat / 4096 → EndsInError c 5#4)

/-- One command after another: the second runs on the state the first leaves. -/
def andThen (outcome : Host.Outcome State Fault Refusal) (i : Instr) : Host.Outcome State Fault Refusal :=
  match outcome with
  | .next s => exec i s
  | .fault r => .fault r
  | .refused r => .refused r

/-- A legal read at an offset returns this word, and changes no other state (20_memory.md R62, R70). -/
def ReadsAs (off : BitVec 7) (value : State → Word) : Prop :=
  ∀ (s : State) (rest : List HostEvent), s.pending = .read off 4 :: rest →
    step s = .next { s with pending := rest, reply := some (value s) }

/-- A legal write at an offset has this effect, and changes no other state (20_memory.md R62, R65). -/
def WritesAs (off : BitVec 7) (effect : State → Word → State) : Prop :=
  ∀ (s : State) (rest : List HostEvent) (v : Word), s.pending = .write off 4 v :: rest →
    step s = .next (effect { s with pending := rest, reply := none } v)

/-- The offsets that no register has, among the multiples of 4 (20_memory.md R64). -/
def unmappedOffsets : List Nat := [0x54, 0x58, 0x5C]

/-- The offsets of the read-only registers (60_exceptions.md R276): ID, DOUT, CK, SECRET_LEN, CONFIG, DIGEST0..4, SERIAL0..7. -/
def readOnlyOffsets : List Nat :=
  [0x00, 0x28, 0x2C, 0x30, 0x34, 0x38, 0x3C, 0x40, 0x44, 0x48, 0x4C, 0x50,
   0x60, 0x64, 0x68, 0x6C, 0x70, 0x74, 0x78, 0x7C]

/-- A word that is a well-formed command (30_encoding.md R98). -/
def LegalWord (c : Word) : Prop := ∃ i, decode c = .ok i ∧ i.WellFormed

/-- The invariant of the machine. It holds at reset and every step keeps it. -/
structure Inv (s : State) : Prop where
  /-- SECRET keeps its canonical form. -/
  secretCanonical : Memory.wf s.secret
  /-- SECRET holds no byte beyond SECRET_MAX (10_state.md R29). -/
  secretBounded : ∀ cell ∈ s.secret, cell.1 < s.cfg.secretMax
  /-- SECRET_LEN lies in 0..SECRET_MAX (10_state.md R29). -/
  lengthBounded : s.secretLen.toNat ≤ s.cfg.secretMax
  /-- CK is the fold of DG (42_checksum.md R189). -/
  checksumFolds : s.ck = fold s.dg
  /-- DOUT[63] is 0 (40_record_access.md R123). -/
  doutTop : s.dout.getLsbD 63 = false
  /-- OK and ERR are not both 1 (10_state.md R36). -/
  okOrErr : ¬ (s.ok = true ∧ s.err = true)
  /-- ERRCODE is 0 without an error (60_exceptions.md R272). -/
  noErrorCode : s.err = false → s.errCode = 0#4
  /-- ERRCODE is one of 1..6 with an error (60_exceptions.md R270). -/
  errorCode : s.err = true → 1 ≤ s.errCode.toNat ∧ s.errCode.toNat ≤ 6
  /-- A valid serial encodes a permuted record and has the form of a serial (10_state.md R28; 44_encode.md R234, R235). -/
  validSerial : s.serialValid = true → (∃ p : Record, EncodesRecord s.cfg p s.serial) ∧ SerialShape s.serial
  /-- Without a valid serial, SERIAL is all 0x00 (10_state.md R27, R28; 45_generate.md R252). -/
  noSerial : s.serialValid = false → s.serial = Vector.replicate 29 0x00#8

end Sys2Proof.Machine
end

