-- ==== Sys2Proof/Certificates/Slice0/Obligations.lean ====
section
/-! DEFINITION. The statements for the provers. Each docstring names the rules of spec/ it formalises. Where a
statement gives a next state as `{ s with … }`, every field that is not named is unchanged: that is its frame. -/

open Sys2Proof Sys2Proof.Machine

/-! ## A step, decoding, encoding -/

/-- A write of any word to CMD is `runCommand` of that word, with the access taken off the port and nothing answered: a
word that decodes runs its command, with the word in LASTCMD, and a word that does not ends in ILLEGAL_COMMAND, with the
word in LASTCMD too (20_memory.md R62, R70, R72; 10_state.md R37; 30_encoding.md R97; 60_exceptions.md R271). The port's
fields `pending` and `reply` are the model's own (log entries 2, 17). -/
def Obligations.StepRunsDecodedCommand : Prop :=
  ∀ (s : State) (c : Word) (rest : List HostEvent), s.pending = .write 0x04#7 4 c :: rest →
    step s = runCommand c { s with pending := rest, reply := none } ∧
    (∀ i, decode c = .ok i → step s = exec i { s with pending := rest, reply := none, lastCmd := c }) ∧
    (∀ e, decode c = .error e → step s = .next { s with
      pending := rest, reply := none, lastCmd := c, ok := false, err := true, sticky := true, errCode := 4#4 })

/-- Words of the spec decode to the commands it says (30_encoding.md R102; 95_test_vectors.md 2.1). -/
def Obligations.SpecWordsDecode : Prop :=
  decode 0x00000000#32 = .ok .nop ∧ decode 0x00000001#32 = .ok .clear ∧ decode 0x00028002#32 = .ok (.get 0#7 40#6) ∧
  decode 0x000105A3#32 = .ok (.set 45#7 16#6) ∧ decode 0x00001064#32 = .ok (.getp 3#7 1#6) ∧
  decode 0x00005005#32 = .ok (.setp 0#7 5#6) ∧ decode 0x00000006#32 = .ok .validate ∧
  decode 0x00000007#32 = .ok .pack ∧ decode 0x00000008#32 = .ok .checksum ∧ decode 0x0000000A#32 = .ok .permute ∧
  decode 0x0000000B#32 = .ok .encode ∧ decode 0x0000000C#32 = .ok .generate ∧ decode 0x0000000E#32 = .ok .skpush ∧
  decode 0x0000000F#32 = .error .illegalCommand ∧ decode 0x00000021#32 = .error .illegalCommand ∧
  decode 0x00040000#32 = .error .illegalCommand ∧ decode 0x80000002#32 = .error .illegalCommand

/-- Decode and encode agree: the word of every command, with every START and WIDTH, decodes to it (30_encoding.md R91
to R96). Where START + WIDTH is at most 125 this is the spec's own decoding. On a larger span R97's decode raises
FIELD_RANGE: that `decode` answers the command there, whose meaning then raises it, is the model's DESIGN CHOICE (log
entry 14). -/
def Obligations.DecodeInvertsEncode : Prop := ∀ i : Instr, decode (encode i) = .ok i

/-- The other direction: a word that decodes to a command is that command's one word (30_encoding.md R93, R96), where
`decode` makes every check of R97 but the range check (DESIGN CHOICE, log entry 14). -/
def Obligations.EncodeInvertsDecode : Prop := ∀ (c : Word) (i : Instr), decode c = .ok i → encode i = c

/-- The opcode map and the form of every command's word (30_encoding.md R93). -/
def Obligations.CommandWordsFollowOpcodeMap : Prop :=
  (encode .nop = 0x00#32 ∧ encode .clear = 0x01#32 ∧ encode .validate = 0x06#32 ∧ encode .pack = 0x07#32 ∧
    encode .checksum = 0x08#32 ∧ encode .wrhash = 0x09#32 ∧ encode .permute = 0x0A#32 ∧ encode .encode = 0x0B#32 ∧
    encode .generate = 0x0C#32 ∧ encode .skclr = 0x0D#32 ∧ encode .skpush = 0x0E#32) ∧
  ∀ (start : BitVec 7) (width : BitVec 6),
    (encode (.get start width)).toNat = 0x02 + start.toNat * 2 ^ 5 + width.toNat * 2 ^ 12 ∧
    (encode (.set start width)).toNat = 0x03 + start.toNat * 2 ^ 5 + width.toNat * 2 ^ 12 ∧
    (encode (.getp start width)).toNat = 0x04 + start.toNat * 2 ^ 5 + width.toNat * 2 ^ 12 ∧
    (encode (.setp start width)).toNat = 0x05 + start.toNat * 2 ^ 5 + width.toNat * 2 ^ 12

/-- The decode procedure on every word written to CMD, its checks in order (30_encoding.md R94 to R97), with the
codes of 60_exceptions.md R270. -/
def Obligations.DecodeChecksInOrder : Prop :=
  ∀ c : Word,
    let op := c.toNat % 32
    let start := c.toNat / 2 ^ 5 % 128
    let width := c.toNat / 2 ^ 12 % 64
    let isField := op = 2 ∨ op = 3 ∨ op = 4 ∨ op = 5
    (c.toNat / 2 ^ 18 ≠ 0 → EndsInError c 4#4) ∧
    (c.toNat / 2 ^ 18 = 0 → 0x0F ≤ op → EndsInError c 4#4) ∧
    (c.toNat / 2 ^ 18 = 0 → op < 0x0F → ¬ isField → (start ≠ 0 ∨ width ≠ 0) → EndsInError c 4#4) ∧
    (c.toNat / 2 ^ 18 = 0 → isField → 125 < start + width → EndsInError c 5#4) ∧
    (c.toNat / 2 ^ 18 = 0 → op < 0x0F → (isField → start + width ≤ 125) → (¬ isField → start = 0 ∧ width = 0) →
      ∃ i : Instr, (opcode i).toNat = op ∧ (startOf i).toNat = start ∧ (widthOf i).toNat = width ∧
        ∀ s : State, runCommand c s = exec i { s with lastCmd := c })

/-- The count of the legal words, and that every other word ends in ILLEGAL_COMMAND or FIELD_RANGE (30_encoding.md
R98). -/
def Obligations.LegalWordsCounted : Prop :=
  (∀ op : Nat, op < 32 → {c : Word | LegalWord c ∧ c.toNat % 32 = op}.ncard =
    if 2 ≤ op ∧ op ≤ 5 then 6048 else if op < 15 then 1 else 0) ∧
  {c : Word | LegalWord c}.ncard = 11 + 24192 ∧
  ∀ c : Word, ¬ LegalWord c → EndsInError c 4#4 ∨ EndsInError c 5#4

/-- What the assembler accepts, mnemonic by mnemonic (30_encoding.md R99; on tokens, log entry 19): a line is one of the
eleven commands without operands, or one of the four field commands with exactly two operands whose span fits, and any
other mnemonic or operands are refused. What it accepts is well-formed. -/
def Obligations.AssemblerRefusesBadOperands : Prop :=
  (∀ (m : String) (operands : List Nat) (i : Instr), assemble m operands = some i ↔
    (operands = [] ∧ (m, i) ∈ [("NOP", Instr.nop), ("CLEAR", .clear), ("VALIDATE", .validate), ("PACK", .pack),
      ("CHECKSUM", .checksum), ("WRHASH", .wrhash), ("PERMUTE", .permute), ("ENCODE", .encode),
      ("GENERATE", .generate), ("SKCLR", .skclr), ("SKPUSH", .skpush)]) ∨
    (∃ start width : Nat, operands = [start, width] ∧ start + width ≤ 125 ∧ width ≤ 63 ∧
      (m, i) ∈ [("GET", Instr.get (BitVec.ofNat 7 start) (BitVec.ofNat 6 width)),
        ("SET", .set (BitVec.ofNat 7 start) (BitVec.ofNat 6 width)),
        ("GETP", .getp (BitVec.ofNat 7 start) (BitVec.ofNat 6 width)),
        ("SETP", .setp (BitVec.ofNat 7 start) (BitVec.ofNat 6 width))])) ∧
  (∀ m ∈ ["GET", "SET", "GETP", "SETP"], ∀ operands : List Nat, operands.length ≠ 2 → assemble m operands = none) ∧
  (∀ m ∈ ["NOP", "CLEAR", "VALIDATE", "PACK", "CHECKSUM", "WRHASH", "PERMUTE", "ENCODE", "GENERATE", "SKCLR", "SKPUSH"],
    ∀ operands : List Nat, operands ≠ [] → assemble m operands = none) ∧
  (∀ (m : String) (start width : Nat), ¬ (start + width ≤ 125 ∧ width ≤ 63) → assemble m [start, width] = none) ∧
  (∀ (m : String) (operands : List Nat) (i : Instr), assemble m operands = some i → i.WellFormed)

/-! ## The field primitives and the record access commands -/

/-- `getf` and `setf` (40_record_access.md R122). -/
def Obligations.FieldPrimitives : Prop :=
  ∀ (a : Record) (s w : Nat), s + w ≤ 125 →
    (getf a s w).toNat = ∑ i ∈ Finset.range w, (a.getLsbD (s + i)).toNat * 2 ^ i ∧ (getf a s w).toNat < 2 ^ w ∧
    ∀ (n : Nat) (v : BitVec n),
      (∀ i, i < w → (setf a s w v).getLsbD (s + i) = v.getLsbD i) ∧
      (∀ k, k < s ∨ s + w ≤ k → (setf a s w v).getLsbD k = a.getLsbD k)

/-- NOP (40_record_access.md R120). -/
def Obligations.NopWritesOnlyStatus : Prop :=
  encode .nop = 0x00000000#32 ∧ NoOtherWord 0x00 ∧
  ∀ s : State, exec .nop s = .next { s with ok := true, err := false, errCode := 0#4 }

/-- CLEAR (40_record_access.md R121). -/
def Obligations.ClearZeroesRecord : Prop :=
  encode .clear = 0x00000001#32 ∧ NoOtherWord 0x01 ∧
  ∀ s : State, ∃ t : State, exec .clear s = .next t ∧ (∀ k, t.recReg.getLsbD k = false) ∧
    t = { s with recReg := t.recReg, ok := true, err := false, errCode := 0#4 }

/-- GET (40_record_access.md R123): DOUT gets the field's value, every span that fits; FIELD_RANGE on any other. -/
def Obligations.GetReadsRecordField : Prop :=
  FieldWordErrors 0x02 ∧
  ∀ (start : BitVec 7) (width : BitVec 6),
    (encode (.get start width)).toNat = 0x02 + start.toNat * 2 ^ 5 + width.toNat * 2 ^ 12 ∧
    ∀ s : State,
      (start.toNat + width.toNat ≤ 125 → exec (.get start width) s = .next { s with
        dout := BitVec.ofNat 64 (∑ i ∈ Finset.range width.toNat, (s.recReg.getLsbD (start.toNat + i)).toNat * 2 ^ i)
        ok := true, err := false, errCode := 0#4 }) ∧
      (125 < start.toNat + width.toNat → exec (.get start width) s = .next { s with
        ok := false, err := true, sticky := true, errCode := 5#4 })

/-- SET (40_record_access.md R124): the span's cells get the low bits of DIN, every other cell is unchanged. -/
def Obligations.SetWritesRecordField : Prop :=
  FieldWordErrors 0x03 ∧
  ∀ (start : BitVec 7) (width : BitVec 6),
    (encode (.set start width)).toNat = 0x03 + start.toNat * 2 ^ 5 + width.toNat * 2 ^ 12 ∧
    ∀ s : State,
      (start.toNat + width.toNat ≤ 125 → ∃ t : State, exec (.set start width) s = .next t ∧
        (∀ i, i < width.toNat → t.recReg.getLsbD (start.toNat + i) = s.din.getLsbD i) ∧
        (∀ k, k < start.toNat ∨ start.toNat + width.toNat ≤ k → t.recReg.getLsbD k = s.recReg.getLsbD k) ∧
        t = { s with recReg := t.recReg, ok := true, err := false, errCode := 0#4 }) ∧
      (125 < start.toNat + width.toNat → exec (.set start width) s = .next { s with
        ok := false, err := true, sticky := true, errCode := 5#4 })

/-- GETP (40_record_access.md R125): as GET on the permuted record. -/
def Obligations.GetpReadsPermutedField : Prop :=
  FieldWordErrors 0x04 ∧
  ∀ (start : BitVec 7) (width : BitVec 6),
    (encode (.getp start width)).toNat = 0x04 + start.toNat * 2 ^ 5 + width.toNat * 2 ^ 12 ∧
    ∀ s : State,
      (start.toNat + width.toNat ≤ 125 → exec (.getp start width) s = .next { s with
        dout := BitVec.ofNat 64 (∑ i ∈ Finset.range width.toNat, (s.precReg.getLsbD (start.toNat + i)).toNat * 2 ^ i)
        ok := true, err := false, errCode := 0#4 }) ∧
      (125 < start.toNat + width.toNat → exec (.getp start width) s = .next { s with
        ok := false, err := true, sticky := true, errCode := 5#4 })

/-- SETP (40_record_access.md R126): as SET on the permuted record; SERIAL_VALID is unchanged. -/
def Obligations.SetpWritesPermutedField : Prop :=
  FieldWordErrors 0x05 ∧
  ∀ (start : BitVec 7) (width : BitVec 6),
    (encode (.setp start width)).toNat = 0x05 + start.toNat * 2 ^ 5 + width.toNat * 2 ^ 12 ∧
    ∀ s : State,
      (start.toNat + width.toNat ≤ 125 → ∃ t : State, exec (.setp start width) s = .next t ∧
        (∀ i, i < width.toNat → t.precReg.getLsbD (start.toNat + i) = s.din.getLsbD i) ∧
        (∀ k, k < start.toNat ∨ start.toNat + width.toNat ≤ k → t.precReg.getLsbD k = s.precReg.getLsbD k) ∧
        t = { s with precReg := t.precReg, ok := true, err := false, errCode := 0#4 }) ∧
      (125 < start.toNat + width.toNat → exec (.setp start width) s = .next { s with
        ok := false, err := true, sticky := true, errCode := 5#4 })

/-- SET then GET of one span returns DIN[w-1:0], on the record and on the permuted record (40_record_access.md R124,
R126). -/
def Obligations.SetThenGetReadsBack : Prop :=
  ∀ (start : BitVec 7) (width : BitVec 6) (s : State), start.toNat + width.toNat ≤ 125 →
    (∃ t : State, andThen (exec (.set start width) s) (.get start width) = .next t ∧
      t.dout.toNat = s.din.toNat % 2 ^ width.toNat) ∧
    (∃ t : State, andThen (exec (.setp start width) s) (.getp start width) = .next t ∧
      t.dout.toNat = s.din.toNat % 2 ^ width.toNat)

/-! ## The packer -/

/-- VALIDATE (41_packing.md R150, R151): the checks in order, and STATUS only. -/
def Obligations.ValidateChecksInOrder : Prop :=
  encode .validate = 0x00000006#32 ∧ NoOtherWord 0x06 ∧
  ∀ s : State,
    (ArgsValid s → exec .validate s = .next { s with ok := true, err := false, errCode := 0#4 }) ∧
    (∀ code : BitVec 4, ArgsFail s code →
      exec .validate s = .next { s with ok := false, err := true, sticky := true, errCode := code })

/-- PACK (41_packing.md R152): the whole record, cell by cell, with the version gates; nothing but STATUS on a failing
check. -/
def Obligations.PackWritesGatedFields : Prop :=
  encode .pack = 0x00000007#32 ∧ NoOtherWord 0x07 ∧
  ∀ s : State,
    (ArgsValid s → ∃ t : State, exec .pack s = .next t ∧ (∀ k, t.recReg.getLsbD k = packedCell s k) ∧
      t = { s with recReg := t.recReg, ok := true, err := false, errCode := 0#4 }) ∧
    (∀ code : BitVec 4, ArgsFail s code →
      exec .pack s = .next { s with ok := false, err := true, sticky := true, errCode := code })

/-! ## The checksum engine -/

/-- SKCLR (42_checksum.md R180): the length only; the bytes keep their values. -/
def Obligations.SkclrEmptiesStore : Prop :=
  encode .skclr = 0x0000000D#32 ∧ NoOtherWord 0x0D ∧
  ∀ s : State, secretBytes { s with secretLen := 0#8 } = [] ∧
    exec .skclr s = .next { s with secretLen := 0#8, ok := true, err := false, errCode := 0#4 }

/-- SKPUSH (42_checksum.md R181), for a length in its range 0..SECRET_MAX (10_state.md R29): the byte at index
SECRET_LEN is written, every other byte of the store reads as before; SECRET_FULL on a full store. -/
def Obligations.SkpushAppendsByte : Prop :=
  encode .skpush = 0x0000000E#32 ∧ NoOtherWord 0x0E ∧
  ∀ s : State,
    (s.secretLen.toNat < s.cfg.secretMax → ∃ t : State, exec .skpush s = .next t ∧
      (Memory.read t.secret s.secretLen.toNat).toNat = s.din.toNat % 256 ∧
      (∀ a, a ≠ s.secretLen.toNat → Memory.read t.secret a = Memory.read s.secret a) ∧
      t.secretLen.toNat = s.secretLen.toNat + 1 ∧
      t = { s with secret := t.secret, secretLen := t.secretLen, ok := true, err := false, errCode := 0#4 }) ∧
    (s.secretLen.toNat = s.cfg.secretMax →
      exec .skpush s = .next { s with ok := false, err := true, sticky := true, errCode := 6#4 })

/-- The secret after SKPUSH is the secret before with DIN[7:0] appended (42_checksum.md R181, R182). -/
def Obligations.SkpushExtendsSecret : Prop :=
  ∀ s : State, s.secretLen.toNat < s.cfg.secretMax →
    ∃ t : State, exec .skpush s = .next t ∧ secretBytes t = secretBytes s ++ [BitVec.ofNat 8 s.din.toNat]

/-- The fold (42_checksum.md R187): five XOR lanes of a digest's bytes at a stride of 5, lane `k` at bit `8k`. -/
def Obligations.FoldIsFiveLanes : Prop :=
  ∀ d : Vector Byte 20,
    (fold d).toNat =
      (d[0] ^^^ d[5] ^^^ d[10] ^^^ d[15]).toNat + (d[1] ^^^ d[6] ^^^ d[11] ^^^ d[16]).toNat * 2 ^ 8 +
      (d[2] ^^^ d[7] ^^^ d[12] ^^^ d[17]).toNat * 2 ^ 16 + (d[3] ^^^ d[8] ^^^ d[13] ^^^ d[18]).toNat * 2 ^ 24 +
      (d[4] ^^^ d[9] ^^^ d[14] ^^^ d[19]).toNat * 2 ^ 32

/-- CHECKSUM (42_checksum.md R189): DG is the digest of the window bytes, the secret and the seed, CK its fold. -/
def Obligations.ChecksumHashesWindow : Prop :=
  encode .checksum = 0x00000008#32 ∧ NoOtherWord 0x08 ∧
  ∀ s : State, exec .checksum s = .next { s with
    dg := digest160 s.cfg.digest (specMessage s)
    ck := fold (digest160 s.cfg.digest (specMessage s))
    ok := true, err := false, errCode := 0#4 }

/-- CHECKSUM never reads the Hash field, SECRET bytes from SECRET_LEN on, PREC, SERIAL or any operand register: two
states that agree on cells 40..124, the secret and the configuration get the same DG and CK (42_checksum.md R185, R189). -/
def Obligations.ChecksumReadsOnlyWindowAndSecret : Prop :=
  ∀ s s' : State, s.cfg = s'.cfg → (∀ k, 40 ≤ k → s.recReg.getLsbD k = s'.recReg.getLsbD k) →
    secretBytes s = secretBytes s' →
    ∃ t t' : State, exec .checksum s = .next t ∧ exec .checksum s' = .next t' ∧ t.dg = t'.dg ∧ t.ck = t'.ck

/-- WRHASH (42_checksum.md R190): cells 0..39 get CK, and nothing else changes but STATUS. -/
def Obligations.WrhashWritesHashField : Prop :=
  encode .wrhash = 0x00000009#32 ∧ NoOtherWord 0x09 ∧
  ∀ s : State, ∃ t : State, exec .wrhash s = .next t ∧
    (∀ k, t.recReg.getLsbD k = if k < 40 then s.ck.getLsbD k else s.recReg.getLsbD k) ∧
    t = { s with recReg := t.recReg, ok := true, err := false, errCode := 0#4 }

/-! ## The permuter -/

/-- PERMUTE (43_permute.md R213) by the table of R212. -/
def Obligations.PermuteFollowsSourceTable : Prop :=
  encode .permute = 0x0000000A#32 ∧ NoOtherWord 0x0A ∧
  ∀ s : State, ∃ t : State, exec .permute s = .next t ∧
    (∀ d, d < 125 → t.precReg.getLsbD d = s.recReg.getLsbD (specSource d)) ∧
    t = { s with precReg := t.precReg, ok := true, err := false, errCode := 0#4 }

/-- The inverse table (43_permute.md R214): source `k` goes to destination `dst[k]`, so PERMUTE loses no cell. -/
def Obligations.PermuteFollowsDestinationTable : Prop :=
  ∀ s : State, ∃ t : State, exec .permute s = .next t ∧
    ∀ k, k < 125 → specDestination k < 125 ∧ specSource (specDestination k) = k ∧
      t.precReg.getLsbD (specDestination k) = s.recReg.getLsbD k

/-- PERMUTE keeps the number of 1-bits (43_permute.md R213). -/
def Obligations.PermuteKeepsOnes : Prop :=
  ∀ s : State, ∃ t : State, exec .permute s = .next t ∧
    ((Finset.range 125).filter fun d => t.precReg.getLsbD d = true).card =
      ((Finset.range 125).filter fun k => s.recReg.getLsbD k = true).card

/-! ## The encoder -/

/-- ENCODE (44_encode.md R230 to R232, R234): dashes, and every group's symbol at its slot's position. -/
def Obligations.EncodeWritesSerial : Prop :=
  encode .encode = 0x0000000B#32 ∧ NoOtherWord 0x0B ∧
  ∀ s : State, ∃ t : State, exec .encode s = .next t ∧ EncodesRecord s.cfg s.precReg t.serial ∧
    t = { s with serial := t.serial, serialValid := true, ok := true, err := false, errCode := 0#4 }

/-- Every character of SERIAL after ENCODE is a dash at its place or one of the alphabet's (44_encode.md R235). -/
def Obligations.EncodedSerialHasShape : Prop :=
  ∀ s : State, ∃ t : State, exec .encode s = .next t ∧ SerialShape t.serial

/-- ENCODE is injective on PREC, whatever SERIAL held before (45_generate.md R255; 44_encode.md R233). -/
def Obligations.EncodeIsInjective : Prop :=
  ∀ s s' : State, s.cfg = s'.cfg →
    ∃ t t' : State, exec .encode s = .next t ∧ exec .encode s' = .next t' ∧
      (t.serial = t'.serial ↔ s.precReg = s'.precReg)

/-- Configuration well-formedness (44_encode.md R233; 93_implementation_defined.md I7; 00_scope.md R9): ill-formed
parameters are refused, well-formed ones run; in every configuration ALPHABET is injective with the 32 characters as its
image, SLOT_MAP is a bijection, and SECRET_MAX lies in 1..255. -/
def Obligations.IllFormedConfigurationRefused : Prop :=
  (∀ p : Params, (¬ p.WellFormed → powerOn p = .refused .illFormedConfiguration) ∧
    (p.WellFormed → ∃ t : State, powerOn p = .next t ∧ t.cfg.toParams = p)) ∧
  ∀ s : State, Function.Injective (fun i : Fin 32 => s.cfg.alphabet[i]) ∧
    (∀ ch : Byte, ch ∈ symbolSet ↔ ∃ i : Fin 32, s.cfg.alphabet[i] = ch) ∧
    Function.Bijective (fun i : Fin 25 => s.cfg.slotMap[i]) ∧ 1 ≤ s.cfg.secretMax ∧ s.cfg.secretMax ≤ 255

/-! ## The orchestrator -/

/-- GENERATE (45_generate.md R250, R252): on valid operands the record, the digest, the checksum, the permuted record
and the serial are those of the pipeline; on a failing check SERIAL and SERIAL_VALID are cleared and nothing else but
STATUS changes. -/
def Obligations.GenerateBuildsSerial : Prop :=
  encode .generate = 0x0000000C#32 ∧ NoOtherWord 0x0C ∧
  ∀ s : State,
    (ArgsValid s → ∃ t : State, exec .generate s = .next t ∧
      (∀ k, t.recReg.getLsbD k = if k < 40 then t.ck.getLsbD k else packedCell s k) ∧
      t.dg = digest160 s.cfg.digest (specMessage t) ∧ t.ck = fold t.dg ∧
      (∀ d, d < 125 → t.precReg.getLsbD d = t.recReg.getLsbD (specSource d)) ∧
      EncodesRecord s.cfg t.precReg t.serial ∧
      t = { s with recReg := t.recReg, precReg := t.precReg, ck := t.ck, dg := t.dg, serial := t.serial,
                   serialValid := true, ok := true, err := false, errCode := 0#4 }) ∧
    (∀ code : BitVec 4, ArgsFail s code →
      exec .generate s = .next { s with serial := Vector.replicate 29 0x00#8, serialValid := false,
                                        ok := false, err := true, sticky := true, errCode := code })

/-- GENERATE leaves the state of PACK, CHECKSUM, WRHASH, PERMUTE, ENCODE in turn (45_generate.md R251). -/
def Obligations.GenerateIsPipeline : Prop :=
  ∀ s : State, ArgsValid s → ∃ t : State, exec .generate s = .next t ∧
    andThen (andThen (andThen (andThen (exec .pack s) .checksum) .wrhash) .permute) .encode = .next t

/-- Determinism (45_generate.md R254): the serial is a function of the secret, the version, the seeds' used bits, the
count from version 6 on, FLAGS from version 8 on, and the configuration's DIGEST160, HASH_SEED, CK_PAD, ALPHABET and
SLOT_MAP; of nothing else. -/
def Obligations.SerialIsFunctionOfOperands : Prop :=
  ∀ s s' : State, ArgsValid s → ArgsValid s' → secretBytes s = secretBytes s' → s.argVersion = s'.argVersion →
    (6 ≤ s.argVersion.toInt → s.argCount = s'.argCount) → (8 ≤ s.argVersion.toInt → flagsOf s = flagsOf s') →
    unitIdOf s = unitIdOf s' → batchIdOf s = batchIdOf s' →
    s.cfg.digest = s'.cfg.digest → s.cfg.hashSeed = s'.cfg.hashSeed → s.cfg.ckPad = s'.cfg.ckPad →
    s.cfg.alphabet = s'.cfg.alphabet → s.cfg.slotMap = s'.cfg.slotMap →
    ∃ t t' : State, exec .generate s = .next t ∧ exec .generate s' = .next t' ∧ t.serial = t'.serial

/-- Recoverable fields (45_generate.md R255): equal serials of one ALPHABET and SLOT_MAP come from equal versions, unit
and batch identifiers, from equal counts from version 6 on, and from equal flags from version 8 on. -/
def Obligations.SerialDeterminesOperands : Prop :=
  ∀ s s' : State, ArgsValid s → ArgsValid s' → s.cfg.alphabet = s'.cfg.alphabet → s.cfg.slotMap = s'.cfg.slotMap →
    ∃ t t' : State, exec .generate s = .next t ∧ exec .generate s' = .next t' ∧
      (t.serial = t'.serial → s.argVersion = s'.argVersion ∧ unitIdOf s = unitIdOf s' ∧ batchIdOf s = batchIdOf s' ∧
        (6 ≤ s.argVersion.toInt → s.argCount = s'.argCount) ∧ (8 ≤ s.argVersion.toInt → flagsOf s = flagsOf s'))

/-! ## Errors -/

/-- Errors are precise (60_exceptions.md R271): STATUS and LASTCMD only, but for GENERATE's clearing of the serial. -/
def Obligations.ErrorsArePrecise : Prop :=
  ∀ (c : Word) (s t : State), runCommand c s = .next t → t.err = true →
    t = { s with lastCmd := c, ok := false, err := true, sticky := true, errCode := t.errCode,
                 serial := t.serial, serialValid := t.serialValid } ∧
    1 ≤ t.errCode.toNat ∧ t.errCode.toNat ≤ 6 ∧
    ((t.serial = s.serial ∧ t.serialValid = s.serialValid) ∨
      (c = 0x0000000C#32 ∧ t.serial = Vector.replicate 29 0x00#8 ∧ t.serialValid = false))

/-- A completion's STATUS (60_exceptions.md R272): STICKY is unchanged, and SERIAL_VALID changes only by ENCODE and
GENERATE. -/
def Obligations.CompletionsWriteStatus : Prop :=
  ∀ (c : Word) (s t : State), runCommand c s = .next t → t.err = false →
    t.ok = true ∧ t.errCode = 0#4 ∧ t.sticky = s.sticky ∧
    (t.serialValid = s.serialValid ∨ ((c = 0x0000000B#32 ∨ c = 0x0000000C#32) ∧ t.serialValid = true))

/-- No command error is fatal (60_exceptions.md R274): every word written to CMD leaves a next state that goes on with
the next access, and exactly one of OK and ERR (10_state.md R36). -/
def Obligations.NoCommandIsFatal : Prop :=
  ∀ (s : State) (c : Word) (rest : List HostEvent), s.pending = .write 0x04#7 4 c :: rest →
    ∃ t : State, step s = .next t ∧ t.pending = rest ∧ t.ok = !t.err

/-- No command reads a STATUS bit (10_state.md R44). -/
def Obligations.NoCommandReadsStatus : Prop :=
  ∀ (i : Instr) (s : State) (ok err sticky valid : Bool) (code : BitVec 4),
    ∃ t t' : State, exec i s = .next t ∧
      exec i { s with ok := ok, err := err, sticky := sticky, serialValid := valid, errCode := code } = .next t' ∧
      t' = { t with sticky := t'.sticky, serialValid := t'.serialValid }

/-- Which commands write which registers (10_state.md R22, R24 to R31): whatever a command changes is a register the
spec names it for. -/
def Obligations.CommandsWriteOnlyTheirRegisters : Prop :=
  ∀ (i : Instr) (s t : State), exec i s = .next t →
    (t.recReg = s.recReg ∨ i = .clear ∨ (∃ start width, i = .set start width) ∨ i = .pack ∨ i = .wrhash ∨ i = .generate) ∧
    (t.precReg = s.precReg ∨ i = .permute ∨ (∃ start width, i = .setp start width) ∨ i = .generate) ∧
    ((t.ck = s.ck ∧ t.dg = s.dg) ∨ i = .checksum ∨ i = .generate) ∧
    ((t.serial = s.serial ∧ t.serialValid = s.serialValid) ∨ i = .encode ∨ i = .generate) ∧
    ((t.secret = s.secret ∧ t.secretLen = s.secretLen) ∨ i = .skclr ∨ i = .skpush) ∧
    (t.dout = s.dout ∨ (∃ start width, i = .get start width) ∨ (∃ start width, i = .getp start width)) ∧
    t = { s with recReg := t.recReg, precReg := t.precReg, ck := t.ck, dg := t.dg, serial := t.serial,
                 serialValid := t.serialValid, secret := t.secret, secretLen := t.secretLen, dout := t.dout,
                 ok := t.ok, err := t.err, sticky := t.sticky, errCode := t.errCode }

/-! ## The host window -/

/-- BusError exactly on the accesses the spec lists, and never on another (20_memory.md R61, R64; 60_exceptions.md R276,
R277). -/
def Obligations.BusErrorExactlyOnBadAccess : Prop :=
  ∀ (s : State) (off : BitVec 7) (size : Nat) (v : Word) (rest : List HostEvent),
    let bad := size ≠ 4 ∨ off.toNat % 4 ≠ 0 ∨ off.toNat ∈ unmappedOffsets
    (s.pending = .read off size :: rest →
      (bad → step s = .fault (.busError off)) ∧ (¬ bad → ∃ t : State, step s = .next t)) ∧
    (s.pending = .write off size v :: rest →
      (bad ∨ off.toNat ∈ readOnlyOffsets → step s = .fault (.busError off)) ∧
      (¬ (bad ∨ off.toNat ∈ readOnlyOffsets) → ∃ t : State, step s = .next t))

/-- What a read of each register from 0x00 to 0x3C returns, and that it changes no other state (20_memory.md R63, R70;
10_state.md R36 to R39). -/
def Obligations.HostReadsRegisters : Prop :=
  ReadsAs 0x00#7 (fun _ => 0x56570007#32) ∧ ReadsAs 0x04#7 (fun s => s.lastCmd) ∧
  ReadsAs 0x08#7 (fun s => BitVec.ofNat 32
    (s.ok.toNat + 2 * s.err.toNat + 4 * s.sticky.toNat + 8 * s.serialValid.toNat + 16 * s.errCode.toNat)) ∧
  ReadsAs 0x0C#7 (fun s => s.argCount) ∧ ReadsAs 0x10#7 (fun s => s.argVersion) ∧
  ReadsAs 0x14#7 (fun s => s.argAddons) ∧ ReadsAs 0x18#7 (fun s => s.unitSeed) ∧
  ReadsAs 0x1C#7 (fun s => s.batchSeed) ∧
  ReadsAs 0x20#7 (fun s => BitVec.ofNat 32 s.din.toNat) ∧ ReadsAs 0x24#7 (fun s => BitVec.ofNat 32 (s.din.toNat / 2 ^ 32)) ∧
  ReadsAs 0x28#7 (fun s => BitVec.ofNat 32 s.dout.toNat) ∧
  ReadsAs 0x2C#7 (fun s => BitVec.ofNat 32 (s.dout.toNat / 2 ^ 32)) ∧
  ReadsAs 0x30#7 (fun s => BitVec.ofNat 32 s.ck.toNat) ∧ ReadsAs 0x34#7 (fun s => BitVec.ofNat 32 (s.ck.toNat / 2 ^ 32)) ∧
  ReadsAs 0x38#7 (fun s => BitVec.ofNat 32 s.secretLen.toNat) ∧
  ReadsAs 0x3C#7 (fun s => BitVec.ofNat 32 (s.cfg.secretMax + 256 * s.cfg.ckPad.toNat))

/-- The DIGEST words pack DG little-endian (20_memory.md R66). -/
def Obligations.DigestWordsPackDigest : Prop :=
  ∀ (s : State) (n : Fin 5) (rest : List HostEvent), s.pending = .read (BitVec.ofNat 7 (0x40 + 4 * n.val)) 4 :: rest →
    ∃ w : Word, step s = .next { s with pending := rest, reply := some w } ∧
      ∀ (k : Fin 4) (j : Fin 20), j.val = 4 * n.val + k.val → w.extractLsb' (8 * k.val) 8 = s.dg[j]

/-- The SERIAL words pack SERIAL little-endian, with bytes 29..31 read as 0x00 (20_memory.md R67). -/
def Obligations.SerialWordsPackSerial : Prop :=
  ∀ (s : State) (n : Fin 8) (rest : List HostEvent), s.pending = .read (BitVec.ofNat 7 (0x60 + 4 * n.val)) 4 :: rest →
    ∃ w : Word, step s = .next { s with pending := rest, reply := some w } ∧
      (∀ (k : Fin 4) (j : Fin 29), j.val = 4 * n.val + k.val → w.extractLsb' (8 * k.val) 8 = s.serial[j]) ∧
      (∀ k : Fin 4, 28 < 4 * n.val + k.val → w.extractLsb' (8 * k.val) 8 = 0x00#8)

/-- A write of each operand register stores all 32 bits, and changes no other state (20_memory.md R62, R63). -/
def Obligations.HostWritesOperands : Prop :=
  WritesAs 0x0C#7 (fun s v => { s with argCount := v }) ∧ WritesAs 0x10#7 (fun s v => { s with argVersion := v }) ∧
  WritesAs 0x14#7 (fun s v => { s with argAddons := v }) ∧ WritesAs 0x18#7 (fun s v => { s with unitSeed := v }) ∧
  WritesAs 0x1C#7 (fun s v => { s with batchSeed := v }) ∧
  WritesAs 0x20#7 (fun s v => { s with din := BitVec.ofNat 64 (v.toNat + s.din.toNat / 2 ^ 32 * 2 ^ 32) }) ∧
  WritesAs 0x24#7 (fun s v => { s with din := BitVec.ofNat 64 (s.din.toNat % 2 ^ 32 + v.toNat * 2 ^ 32) })

/-- A write to STATUS clears STICKY when bit 2 of the value is 1, and does nothing else (20_memory.md R65). -/
def Obligations.StatusWriteClearsSticky : Prop :=
  WritesAs 0x08#7 (fun s v => if v.getLsbD 2 then { s with sticky := false } else s)

/-- LASTCMD holds the last word written to CMD, legal or not, and a read of CMD returns it (10_state.md R37). -/
def Obligations.LastCmdHoldsLastWord : Prop :=
  (∀ (s t : State) (c : Word) (rest : List HostEvent), s.pending = .write 0x04#7 4 c :: rest → step s = .next t →
    t.lastCmd = c) ∧
  (∀ (s t : State) (e : HostEvent) (rest : List HostEvent), s.pending = e :: rest → e ≠ .reset →
    (∀ c, e ≠ .write 0x04#7 4 c) → step s = .next t → t.lastCmd = s.lastCmd) ∧
  ReadsAs 0x04#7 (fun s => s.lastCmd) ∧ State.reset.lastCmd = 0#32

/-- The platform delivers an access at BASE + offset to the window, and no access outside the 128 bytes reaches the
block (20_memory.md R60, R64). -/
def Obligations.WindowIsAtBase : Prop :=
  ∀ (s : State) (access : BitVec 7 → HostEvent),
    (∀ off : BitVec 7, s.deliver (s.cfg.base + off.toNat) access = { s with pending := s.pending ++ [access off] }) ∧
    (∀ address, address < s.cfg.base ∨ s.cfg.base + 128 ≤ address → s.deliver address access = s)

/-! ## The secret -/

/-- The host cannot read SECRET bytes (10_state.md R29): a read answers the same whatever the store holds. -/
def Obligations.SecretIsUnreadable : Prop :=
  ∀ (s : State) (m : Memory) (off : BitVec 7) (size : Nat) (rest : List HostEvent),
    s.pending = .read off size :: rest →
    (∃ t : State, step s = .next t ∧ step { s with secret := m } = .next { t with secret := m }) ∨
    (step s = .fault (.busError off) ∧ step { s with secret := m } = .fault (.busError off))

/-- SECRET bytes from SECRET_LEN on are never read (10_state.md R29): two states that differ only there stay so under
every step, and agree on everything else. -/
def Obligations.StaleSecretBytesAreInvisible : Prop :=
  ∀ (s t : State) (m : Memory), (∀ a, a < s.secretLen.toNat → Memory.read m a = Memory.read s.secret a) →
    step s = .next t →
    ∃ m' : Memory, step { s with secret := m } = .next { t with secret := m' } ∧
      ∀ a, a < t.secretLen.toNat → Memory.read m' a = Memory.read t.secret a

/-! ## Reset and invariants -/

/-- The reset values (70_reset_and_hazards.md R301), and STATUS reads 0 after reset. -/
def Obligations.ResetValues : Prop :=
  (∀ k, State.reset.recReg.getLsbD k = false) ∧ (∀ k, State.reset.precReg.getLsbD k = false) ∧ State.reset.ck = 0#40 ∧
  (∀ j : Fin 20, State.reset.dg[j] = 0x00#8) ∧ (∀ q : Fin 29, State.reset.serial[q] = 0x00#8) ∧
  State.reset.serialValid = false ∧ State.reset.secretLen = 0#8 ∧ (∀ a, Memory.read State.reset.secret a = 0x00#8) ∧
  State.reset.din = 0#64 ∧ State.reset.dout = 0#64 ∧ State.reset.argCount = 0#32 ∧ State.reset.argVersion = 0#32 ∧
  State.reset.argAddons = 0x0000051F#32 ∧ State.reset.unitSeed = 0#32 ∧ State.reset.batchSeed = 0#32 ∧
  readReg .status State.reset = 0x00000000#32 ∧ State.reset.lastCmd = 0#32

/-- Reset at any time sets every register to its reset value and keeps the configuration (70_reset_and_hazards.md R300). -/
def Obligations.ResetRestoresRegisters : Prop :=
  ∀ (s : State) (rest : List HostEvent), s.pending = .reset :: rest →
    ∃ t : State, step s = .next t ∧ t.cfg = s.cfg ∧ t.pending = rest ∧
      { t with cfg := State.reset.cfg, pending := State.reset.pending } = State.reset

/-- Every step keeps the invariant: the store's form and bounds, CK the fold of DG, DOUT[63] zero, a legal STATUS, and
SERIAL the encoding of a record exactly when it is valid (10_state.md; 42_checksum.md; 44_encode.md; 60_exceptions.md). -/
def Obligations.EveryStepKeepsInvariant : Prop := ∀ s t : State, Inv s → step s = .next t → Inv t

/-- The invariant holds after reset, whatever the configuration. -/
def Obligations.ResetMeetsInvariant : Prop := Inv State.reset ∧ ∀ cfg : Config, Inv (State.resetWith cfg)

/-- No access, command or reset changes the configuration (20_memory.md R76; 70_reset_and_hazards.md R300). -/
def Obligations.ConfigurationNeverChanges : Prop := ∀ s t : State, step s = .next t → t.cfg = s.cfg

/-! ## The digest as an argument -/

/-- DIGEST160 is an argument of the model, any function from byte sequences to 20 bytes (00_scope.md R9; 42_checksum.md
R183): under every such function CHECKSUM and GENERATE use it and no other command changes, and the host's machine is
the machine with its configuration's digest as the argument (log entry 8). -/
def Obligations.DigestIsArgument : Prop :=
  (∀ (D : Digest160) (s : State),
    execWith D .checksum s = .next { s with
      dg := D (specMessage s), ck := fold (D (specMessage s)), ok := true, err := false, errCode := 0#4 } ∧
    (ArgsValid s → ∃ t : State, execWith D .generate s = .next t ∧
      (∀ k, t.recReg.getLsbD k = if k < 40 then t.ck.getLsbD k else packedCell s k) ∧
      t.dg = D (specMessage t) ∧ t.ck = fold t.dg ∧
      (∀ d, d < 125 → t.precReg.getLsbD d = t.recReg.getLsbD (specSource d)) ∧
      EncodesRecord s.cfg t.precReg t.serial ∧
      t = { s with recReg := t.recReg, precReg := t.precReg, ck := t.ck, dg := t.dg, serial := t.serial,
                   serialValid := true, ok := true, err := false, errCode := 0#4 }) ∧
    (∀ code : BitVec 4, ArgsFail s code → execWith D .generate s = exec .generate s) ∧
    ∀ i : Instr, i ≠ .checksum → i ≠ .generate → execWith D i s = exec i s) ∧
  (∀ (D : Digest160) (s : State) (c : Word) (rest : List HostEvent) (i : Instr),
    s.pending = .write 0x04#7 4 c :: rest → decode c = .ok i →
    stepWith D s = execWith D i { s with pending := rest, reply := none, lastCmd := c }) ∧
  ∀ s : State, step s = stepWith (digest160 s.cfg.digest) s
end

