-- ==== Sys2Proof/Laws/Bits.lean ====
section
/-! SUPPORT. The bits of the bit-array operations: a cell of a built array, of a field read and of a field written. -/

namespace Sys2Proof.Machine

theorem testBit_sumBits (f : Nat → Bool) (n k : Nat) :
    (sumBits f n).testBit k = (decide (k < n) && f k) := by
  induction n with
  | zero => simp [sumBits]
  | succ n ih =>
    rw [sumBits, Nat.testBit_or, ih, Nat.testBit_shiftLeft]
    rcases Nat.lt_trichotomy k n with h | rfl | h
    · have h2 : ¬ n ≤ k := by omega
      simp [h, h2, Nat.lt_succ_of_lt h]
    · cases f k <;> simp
    · have h1 : ¬ k < n := by omega
      have h2 : ¬ k < n + 1 := by omega
      have h3 : k - n ≠ 0 := by omega
      cases f n <;> simp [h1, h2]
      rw [Nat.testBit_lt_two_pow (Nat.one_lt_two_pow h3)]
      simp

theorem sumBits_lt (f : Nat → Bool) (n : Nat) : sumBits f n < 2 ^ n := by
  apply Nat.lt_pow_two_of_testBit
  intro k hk
  rw [testBit_sumBits]
  simp [Nat.not_lt.mpr hk]

theorem sumBits_succ (f : Nat → Bool) (n : Nat) : sumBits f (n + 1) = sumBits f n + (f n).toNat * 2 ^ n := by
  rw [sumBits, Nat.or_comm, ← Nat.shiftLeft_add_eq_or_of_lt (sumBits_lt f n), Nat.shiftLeft_eq, Nat.add_comm]

theorem sumBits_eq_sum (f : Nat → Bool) (n : Nat) :
    sumBits f n = ∑ k ∈ Finset.range n, (f k).toNat * 2 ^ k := by
  induction n with
  | zero => simp [sumBits]
  | succ n ih => rw [sumBits_succ, Finset.sum_range_succ, ih]

@[simp] theorem getLsbD_ofCells (n : Nat) (f : Nat → Bool) (k : Nat) :
    (ofCells n f).getLsbD k = (decide (k < n) && f k) := by
  simp [ofCells, BitVec.getLsbD_ofNat, testBit_sumBits]

@[simp] theorem getLsbD_getf (a : Record) (s w i : Nat) :
    (getf a s w).getLsbD i = (decide (i < w) && a.getLsbD (s + i)) := by
  simp [getf, BitVec.getLsbD_extractLsb']

theorem getLsbD_setf {n : Nat} (a : Record) (s w : Nat) (v : BitVec n) (k : Nat) :
    (setf a s w v).getLsbD k =
      (decide (k < 125) && if s ≤ k ∧ k < s + w then v.getLsbD (k - s) else a.getLsbD k) := by
  simp [setf]

theorem getLsbD_setField {n : Nat} (a : Record) (f : Field) (v : BitVec n) (k : Nat) :
    (setField a f v).getLsbD k =
      (decide (k < 125) && if f.start ≤ k ∧ k < f.start + f.width then v.getLsbD (k - f.start) else a.getLsbD k) :=
  getLsbD_setf a f.start f.width v k

@[simp] theorem getLsbD_readSpan (a : Record) (start : BitVec 7) (width : BitVec 6) (i : Nat) :
    (readSpan a start width).getLsbD i = (decide (i < width.toNat) && a.getLsbD (start.toNat + i)) := by
  have := width.isLt
  simp only [readSpan, BitVec.getLsbD_setWidth, getLsbD_getf]
  by_cases h : i < width.toNat
  · simp [h]; omega
  · simp [h]

theorem getLsbD_writeSpan (a : Record) (start : BitVec 7) (width : BitVec 6) (v : BitVec 64) (k : Nat) :
    (writeSpan a start width v).getLsbD k =
      (decide (k < 125) &&
        if start.toNat ≤ k ∧ k < start.toNat + width.toNat then v.getLsbD (k - start.toNat) else a.getLsbD k) :=
  getLsbD_setf a start.toNat width.toNat v k

@[simp] theorem getLsbD_permuteRecord (r : Record) (d : Nat) :
    (permuteRecord r).getLsbD d = (decide (d < 125) && r.getLsbD (src d)) := by
  simp [permuteRecord]

theorem getLsbD_windowCells (cfg : Config) (r : Record) (k : Nat) :
    (windowCells cfg r).getLsbD k = if k < 125 then r.getLsbD k else cfg.ckPad.getLsbD (k - 125) := by
  rw [← BitVec.getLsbD_append (x := cfg.ckPad) (y := r)]
  rfl

end Sys2Proof.Machine
end

