-- ==== Sys2Proof/Laws/Memory.lean ====
section
/-! SUPPORT. The SECRET store: a read after a write, and the canonical form under every operation. -/

namespace Sys2Proof.Machine

theorem Memory.read_erase (m : Memory) (a c : Nat) :
    Memory.read (Memory.erase m a) c = if c = a then Memory.unlisted else Memory.read m c := by
  induction m with
  | nil => simp [Memory.erase, Memory.read]
  | cons cell rest ih =>
    simp only [Memory.erase] at ih ⊢
    by_cases h : cell.1 = a
    · rw [List.filter_cons_of_neg (by simp [h]), ih, Memory.read, h]
      rcases eq_or_ne c a with rfl | hc
      · simp
      · simp [hc, hc.symm]
    · rw [List.filter_cons_of_pos (by simp [h]), Memory.read, ih, Memory.read]
      by_cases hc : c = a
      · subst hc; simp [h]
      · simp [hc]

theorem Memory.read_insert (m : Memory) (a c : Nat) (b : Byte) (ha : ∀ cell ∈ m, cell.1 ≠ a) :
    Memory.read (Memory.insert m a b) c = if c = a then b else Memory.read m c := by
  induction m with
  | nil => simp [Memory.insert, Memory.read, eq_comm]
  | cons cell rest ih =>
    have hr := ih fun x hx => ha x (List.mem_cons_of_mem _ hx)
    have hne := ha cell List.mem_cons_self
    unfold Memory.insert
    split
    · simp [Memory.read, eq_comm]
    · by_cases h : c = a
      · subst h; simp [Memory.read, hne, hr]
      · simp [Memory.read, hr, h]

theorem Memory.erase_ne (m : Memory) (a : Nat) : ∀ cell ∈ Memory.erase m a, cell.1 ≠ a := by
  intro cell h
  simpa using (List.mem_filter.mp h).2

/-- A read after a write gives the byte written, and a write leaves every other index alone. -/
theorem Memory.read_write (m : Memory) (a c : Nat) (b : Byte) :
    Memory.read (Memory.write m a b) c = if c = a then b else Memory.read m c := by
  unfold Memory.write
  split
  · next h => rw [Memory.read_erase, h]
  · rw [Memory.read_insert _ _ _ _ (Memory.erase_ne m a), Memory.read_erase]
    by_cases h : c = a <;> simp [h]

theorem Memory.mem_insert (m : Memory) (a : Nat) (b : Byte) (cell : Host.Cell) :
    cell ∈ Memory.insert m a b ↔ cell = (a, b) ∨ cell ∈ m := by
  induction m with
  | nil => simp [Memory.insert]
  | cons head rest ih =>
    unfold Memory.insert
    split
    · simp
    · simp only [List.mem_cons, ih]; tauto

/-- Which entries a write leaves: the written one, unless it reads as an unlisted index does, and the old ones of
other indices. -/
theorem Memory.mem_write (m : Memory) (a : Nat) (b : Byte) (cell : Host.Cell) :
    cell ∈ Memory.write m a b → (cell = (a, b) ∧ b ≠ Memory.unlisted) ∨ (cell ∈ m ∧ cell.1 ≠ a) := by
  unfold Memory.write
  split
  · intro h
    exact .inr ⟨(List.mem_filter.mp h).1, Memory.erase_ne m a cell h⟩
  · next hb =>
    rw [Memory.mem_insert]
    rintro (h | h)
    · exact .inl ⟨h, hb⟩
    · exact .inr ⟨(List.mem_filter.mp h).1, Memory.erase_ne m a cell h⟩

theorem Memory.erase_wf {m : Memory} (h : Memory.wf m) (a : Nat) : Memory.wf (Memory.erase m a) :=
  ⟨h.1.sublist (List.filter_sublist.map _), fun cell hc => h.2 cell (List.mem_filter.mp hc).1⟩

theorem Memory.insert_wf {m : Memory} (h : Memory.wf m) {a : Nat} {b : Byte} (ha : ∀ cell ∈ m, cell.1 ≠ a)
    (hb : b ≠ Memory.unlisted) : Memory.wf (Memory.insert m a b) := by
  refine ⟨?_, fun cell hc => ?_⟩
  · have hs := h.1
    clear h
    induction m with
    | nil => simp [Memory.insert]
    | cons head rest ih =>
      have hne := ha head List.mem_cons_self
      simp only [List.map_cons, List.pairwise_cons, List.mem_map] at hs
      unfold Memory.insert
      split
      · next hlt =>
        simp only [List.map_cons, List.pairwise_cons, List.mem_cons, List.mem_map]
        refine ⟨?_, ?_, hs.2⟩
        · rintro x (rfl | ⟨y, hy, rfl⟩)
          · exact hlt
          · exact Nat.lt_trans hlt (hs.1 _ ⟨y, hy, rfl⟩)
        · exact fun x hx => hs.1 x hx
      · next hge =>
        simp only [List.map_cons, List.pairwise_cons, List.mem_map]
        refine ⟨?_, ih (fun x hx => ha x (List.mem_cons_of_mem _ hx)) hs.2⟩
        rintro x ⟨y, hy, rfl⟩
        rcases (Memory.mem_insert rest a b y).mp hy with rfl | hy
        · show head.1 < a
          omega
        · exact hs.1 _ ⟨y, hy, rfl⟩
  · rcases (Memory.mem_insert m a b cell).mp hc with rfl | hc
    · exact hb
    · exact h.2 cell hc

/-- A write keeps the canonical form. -/
theorem Memory.write_wf {m : Memory} (h : Memory.wf m) (a : Nat) (b : Byte) : Memory.wf (Memory.write m a b) := by
  unfold Memory.write
  split
  · exact Memory.erase_wf h a
  · next hb => exact Memory.insert_wf (Memory.erase_wf h a) (Memory.erase_ne m a) hb

theorem Memory.reset_wf : Memory.wf State.reset.secret := ⟨List.Pairwise.nil, fun _ h => absurd h (List.not_mem_nil)⟩

end Sys2Proof.Machine
end

