-- ==== Sys2Proof/Laws/Ops.lean ====
section
/-! SUPPORT. What each shared operation can answer, said once: how a command ends, the range check, the argument check,
the permuter's table, the register map, a command word, an event at the port, and a step. -/

namespace Sys2Proof.Machine

/-- A command's end is a next state: a completion of its effect, or the report of its error. -/
theorem endCommand_next {s t : State} {r : Except CmdError State} (h : endCommand s r = .next t) :
    (∃ u, r = .ok u ∧ t = u.complete) ∨ (∃ e, r = .error e ∧ t = s.raiseCmdError e) := by
  cases r with
  | ok u => exact .inl ⟨u, rfl, (Host.Outcome.next.inj h).symm⟩
  | error e => exact .inr ⟨e, rfl, (Host.Outcome.next.inj h).symm⟩

@[simp] theorem endCommand_ok (s u : State) : endCommand s (.ok u) = .next u.complete := rfl

@[simp] theorem endCommand_error (s : State) (e : CmdError) : endCommand s (.error e) = .next (s.raiseCmdError e) := rfl

theorem endCommand_answers (s : State) (r : Except CmdError State) : ∃ t, endCommand s r = .next t := by
  cases r <;> exact ⟨_, rfl⟩

theorem withSpan_inside {start : BitVec 7} {width : BitVec 6} (h : SpanInRecord start width) (u : State) :
    withSpan start width u = .ok u := if_pos h

theorem withSpan_outside {start : BitVec 7} {width : BitVec 6} (h : ¬ SpanInRecord start width) (u : State) :
    withSpan start width u = .error .fieldRange := if_neg h

theorem naddOf_eq_five (s : State) : (naddOf s).toNat = 5 ↔ NaddOk s := by
  simp [naddOf, BitVec.extractLsb'_toNat, Nat.shiftRight_eq_div_pow]

/-- The argument check passes exactly on valid operands. -/
theorem checkArgs_ok (s : State) (h : ArgsValid s) : checkArgs s = .ok () := by
  obtain ⟨hn, ⟨v0, v1⟩, c0, c1⟩ := h
  have hn' := (naddOf_eq_five s).mpr hn
  have hv : ¬ (versionOf s < 0 ∨ versionOf s > 31) := by rw [versionOf]; omega
  have hc : ¬ (countOf s < 0 ∨ countOf s > 65535) := by rw [countOf]; omega
  rw [checkArgs, if_neg (not_not.mpr hn'), if_neg hv, if_neg hc]

/-- The argument check fails with the first failing check's error. -/
theorem checkArgs_error (s : State) (code : BitVec 4) (h : ArgsFail s code) :
    ∃ e, checkArgs s = .error e ∧ e.code = code := by
  rcases h with ⟨hn, rfl⟩ | ⟨hn, hv, rfl⟩ | ⟨hn, hv, hc, rfl⟩
  · exact ⟨.invalidAddonCount, by rw [checkArgs, if_pos (by rwa [ne_eq, naddOf_eq_five])], rfl⟩
  · refine ⟨.versionOutOfRange, ?_, rfl⟩
    rw [checkArgs, if_neg (by rwa [ne_eq, naddOf_eq_five, not_not]), if_pos]
    rw [versionOf]
    by_contra hx
    exact hv ⟨by omega, by omega⟩
  · refine ⟨.countOutOfRange, ?_, rfl⟩
    rw [checkArgs, if_neg (by rwa [ne_eq, naddOf_eq_five, not_not]), if_neg, if_pos]
    · rw [countOf]
      by_contra hx
      exact hc ⟨by omega, by omega⟩
    · rw [versionOf]
      have := hv.1
      have := hv.2
      omega

theorem argsValid_or_fail (s : State) : ArgsValid s ∨ ∃ code, ArgsFail s code := by
  by_cases hn : NaddOk s
  · by_cases hv : VersionOk s
    · by_cases hc : CountOk s
      · exact .inl ⟨hn, hv, hc⟩
      · exact .inr ⟨_, .inr (.inr ⟨hn, hv, hc, rfl⟩)⟩
    · exact .inr ⟨_, .inr (.inl ⟨hn, hv, rfl⟩)⟩
  · exact .inr ⟨_, .inl ⟨hn, rfl⟩⟩

/-- The cursors give the table 43_permute.md R212 prints. -/
theorem interleavedSources_eq : interleavedSources = specSourceTable := by decide +kernel

theorem src_eq_specSource (d : Nat) : src d = specSource d := by rw [src, specSource, interleavedSources_eq]

theorem regAt_offsetOf (r : HostReg) : regAt (offsetOf r) = some r := by
  cases r with
  | digest n => revert n; decide
  | serial n => revert n; decide
  | _ => rfl

theorem offsetOf_of_regAt {off : BitVec 7} {r : HostReg} (h : regAt off = some r) : offsetOf r = off := by
  have all : ∀ o : BitVec 7, ∀ r ∈ regAt o, offsetOf r = o := by decide +kernel
  exact all off r h

/-- A legal access: 4 bytes, at the offset of the register it reaches. -/
theorem accessReg_eq_some {off : BitVec 7} {size : Nat} {r : HostReg} :
    accessReg off size = some r ↔ size = 4 ∧ off = offsetOf r := by
  constructor
  · intro h
    unfold accessReg at h
    split at h
    · cases h
    · next hc => exact ⟨by omega, (offsetOf_of_regAt h).symm⟩
  · rintro ⟨rfl, rfl⟩
    have aligned : (offsetOf r).toNat % 4 = 0 := by
      cases r with
      | digest n => revert n; decide
      | serial n => revert n; decide
      | _ => rfl
    simp [accessReg, aligned, regAt_offsetOf]

/-- Every command answers a next state (60_exceptions.md R274). -/
theorem exec_answers (i : Instr) (s : State) : ∃ t, exec i s = .next t := by
  cases i with
  | nop => exact endCommand_answers s (.ok s)
  | clear => exact endCommand_answers s (.ok _)
  | get start width => exact endCommand_answers s (withSpan _ _ _)
  | set start width => exact endCommand_answers s (withSpan _ _ _)
  | getp start width => exact endCommand_answers s (withSpan _ _ _)
  | setp start width => exact endCommand_answers s (withSpan _ _ _)
  | validate => exact endCommand_answers s _
  | pack => exact endCommand_answers s _
  | checksum => exact endCommand_answers s (.ok s.checksumBody)
  | wrhash => exact endCommand_answers s (.ok s.writeHashBody)
  | permute => exact endCommand_answers s (.ok s.permuteBody)
  | encode => exact endCommand_answers s (.ok s.encodeBody)
  | generate =>
    show ∃ t, execGenerate s = .next t
    unfold execGenerate execGenerateWith
    split <;> exact endCommand_answers _ _
  | skclr => exact endCommand_answers s (.ok _)
  | skpush => exact endCommand_answers s _

/-- A command word executes its command, or its decoding error is reported. -/
theorem runCommand_cases (c : Word) (s : State) :
    (∃ i, decode c = .ok i ∧ runCommand c s = exec i (s.setLastCmd c)) ∨
      (∃ e, decode c = .error e ∧ runCommand c s = .next ((s.setLastCmd c).raiseCmdError e)) := by
  unfold runCommand runCommandBy
  cases h : decode c with
  | ok i => exact .inl ⟨i, rfl, rfl⟩
  | error e => exact .inr ⟨e, rfl, rfl⟩

theorem runCommand_answers (c : Word) (s : State) : ∃ t, runCommand c s = .next t := by
  rcases runCommand_cases c s with ⟨i, -, h⟩ | ⟨e, -, h⟩
  · rw [h]; exact exec_answers i _
  · exact ⟨_, h⟩

theorem step_idle {s : State} (h : s.pending = []) : step s = .next s := by
  simp [step, performNext, performNextBy, h]

theorem step_event {s : State} {e : HostEvent} {rest : List HostEvent} (h : s.pending = e :: rest) :
    step s = perform e s.accept := by
  simp [step, performNext, performNextBy, perform, h]

theorem step_command {s : State} {c : Word} {rest : List HostEvent} (h : s.pending = cmdWrite c :: rest) :
    step s = runCommand c s.accept := step_event h

/-- Everything a step that answers a next state can have done. -/
theorem step_next {s t : State} (h : step s = .next t) :
    (s.pending = [] ∧ t = s) ∨
    (∃ r rest, s.pending = .read (offsetOf r) 4 :: rest ∧ t = s.accept.setReply (readReg r s.accept)) ∨
    (∃ r v rest, s.pending = .write (offsetOf r) 4 v :: rest ∧ writeReg r v s.accept = .next t) ∨
    (∃ rest, s.pending = .reset :: rest ∧ t = { State.resetWith s.cfg with pending := rest }) := by
  cases hp : s.pending with
  | nil =>
    rw [step_idle hp] at h
    exact .inl ⟨rfl, (Host.Outcome.next.inj h).symm⟩
  | cons e rest =>
    rw [step_event hp] at h
    right
    cases e with
    | read off size =>
      simp only [perform, performBy] at h
      cases ha : accessReg off size with
      | none => simp [ha] at h
      | some r =>
        obtain ⟨rfl, rfl⟩ := accessReg_eq_some.mp ha
        simp only [ha] at h
        exact .inl ⟨r, rest, rfl, (Host.Outcome.next.inj h).symm⟩
    | write off size v =>
      simp only [perform, performBy] at h
      cases ha : accessReg off size with
      | none => simp [ha] at h
      | some r =>
        obtain ⟨rfl, rfl⟩ := accessReg_eq_some.mp ha
        simp only [ha] at h
        exact .inr (.inl ⟨r, v, rest, rfl, h⟩)
    | reset =>
      refine .inr (.inr ⟨rest, rfl, ?_⟩)
      have : s.accept.pending = rest := by simp [State.accept, hp]
      rw [← this]
      exact (Host.Outcome.next.inj h).symm

end Sys2Proof.Machine
end

