-- ==== Sys2Proof/Laws/Words.lean ====
section
/-! SUPPORT. The bits of the words built by concatenation: a command word, STATUS, CONFIG, and four bytes as a word. -/

namespace Sys2Proof

theorem getLsbD_formatWord (op : BitVec 5) (start : BitVec 7) (width : BitVec 6) (k : Nat) :
    (formatWord op start width).getLsbD k =
      if k < 5 then op.getLsbD k else if k < 12 then start.getLsbD (k - 5) else width.getLsbD (k - 12) := by
  show BitVec.getLsbD (0#14 ++ width ++ start ++ op : BitVec (14 + 6 + 7 + 5)) k = _
  simp only [BitVec.getLsbD_append, BitVec.getLsbD_zero]
  by_cases h1 : k < 5
  · simp [h1]
  by_cases h2 : k < 12
  · have : k - 5 < 7 := by omega
    simp [h1, h2, this]
  · have h3 : ¬ k - 5 < 7 := by omega
    have h4 : k - 5 - 7 = k - 12 := by omega
    simp only [h1, h2, h3, h4, if_false]
    split
    · rfl
    · next h => simp [BitVec.getLsbD_of_ge width (k - 12) (by omega)]

theorem opField_formatWord (op : BitVec 5) (start : BitVec 7) (width : BitVec 6) :
    opField (formatWord op start width) = op := by
  apply BitVec.eq_of_getLsbD_eq
  intro k hk
  simp [opField, getLsbD_formatWord, hk]

theorem startField_formatWord (op : BitVec 5) (start : BitVec 7) (width : BitVec 6) :
    startField (formatWord op start width) = start := by
  apply BitVec.eq_of_getLsbD_eq
  intro k hk
  have h1 : ¬ 5 + k < 5 := by omega
  have h2 : 5 + k < 12 := by omega
  simp [startField, getLsbD_formatWord, hk, h2]

theorem widthField_formatWord (op : BitVec 5) (start : BitVec 7) (width : BitVec 6) :
    widthField (formatWord op start width) = width := by
  apply BitVec.eq_of_getLsbD_eq
  intro k hk
  have h1 : ¬ 12 + k < 5 := by omega
  simp [widthField, getLsbD_formatWord, hk, h1]

theorem rsvField_formatWord (op : BitVec 5) (start : BitVec 7) (width : BitVec 6) :
    rsvField (formatWord op start width) = 0#14 := by
  apply BitVec.eq_of_getLsbD_eq
  intro k hk
  have h1 : ¬ 18 + k < 5 := by omega
  have h2 : ¬ 18 + k < 12 := by omega
  simp [rsvField, getLsbD_formatWord, h1, h2]
  intro _
  exact BitVec.getLsbD_of_ge width _ (by omega)

namespace Machine

theorem getLsbD_statusWord (s : State) (k : Nat) :
    (statusWord s).getLsbD k =
      if k = 0 then s.ok else if k = 1 then s.err else if k = 2 then s.sticky else if k = 3 then s.serialValid
      else s.errCode.getLsbD (k - 4) := by
  show BitVec.getLsbD (0#24 ++ s.errCode ++ BitVec.ofBool s.serialValid ++ BitVec.ofBool s.sticky ++
    BitVec.ofBool s.err ++ BitVec.ofBool s.ok : BitVec (24 + 4 + 1 + 1 + 1 + 1)) k = _
  simp only [BitVec.getLsbD_append, BitVec.getLsbD_ofBool, BitVec.getLsbD_zero]
  match k with
  | 0 => simp
  | 1 => simp
  | 2 => simp
  | 3 => simp
  | k + 4 =>
    have h : ∀ n, ¬ k + (n + 1) < 1 := by omega
    simp [h]
    intro hk
    by_contra h4
    rw [BitVec.getLsbD_of_ge s.errCode k (by omega)] at hk
    exact absurd hk (by simp)

theorem getLsbD_configWord (cfg : Config) (k : Nat) :
    (configWord cfg).getLsbD k =
      if k < 8 then cfg.secretMax.testBit k else cfg.ckPad.getLsbD (k - 8) := by
  show BitVec.getLsbD (0#21 ++ cfg.ckPad ++ BitVec.ofNat 8 cfg.secretMax : BitVec (21 + 3 + 8)) k = _
  simp only [BitVec.getLsbD_append, BitVec.getLsbD_ofNat]
  by_cases h : k < 8
  · simp [h]
  · simp only [h, if_false]
    split
    · simp
    · next hk => simp [BitVec.getLsbD_of_ge cfg.ckPad (k - 8) (by omega)]

theorem getLsbD_wordOfBytes (b0 b1 b2 b3 : Byte) (k : Nat) :
    (wordOfBytes b0 b1 b2 b3).getLsbD k =
      if k < 8 then b0.getLsbD k else if k < 16 then b1.getLsbD (k - 8) else if k < 24 then b2.getLsbD (k - 16)
      else b3.getLsbD (k - 24) := by
  show BitVec.getLsbD (b3 ++ b2 ++ b1 ++ b0 : BitVec (8 + 8 + 8 + 8)) k = _
  simp only [BitVec.getLsbD_append]
  by_cases h1 : k < 8
  · simp [h1]
  by_cases h2 : k < 16
  · have : k - 8 < 8 := by omega
    simp [h1, h2, this]
  by_cases h3 : k < 24
  · have h4 : ¬ k - 8 < 8 := by omega
    have h5 : k - 8 - 8 < 8 := by omega
    have h6 : k - 8 - 8 = k - 16 := by omega
    have h7 : k - 16 < 8 := by omega
    simp [h1, h2, h3, h4, h6, h7]
  · have h4 : ¬ k - 8 < 8 := by omega
    have h5 : ¬ k - 16 < 8 := by omega
    have h6 : k - 8 - 8 = k - 16 := by omega
    have h7 : k - 16 - 8 = k - 24 := by omega
    simp [h1, h2, h3, h4, h5, h6, h7]

end Machine

end Sys2Proof
end

