-- ==== Sys2Proof/Laws/PerInstr.lean ====
section
/-! SUPPORT. Statements about every command as a word, one lemma per constructor of Instr. -/

namespace Sys2Proof.Laws

/-- The fields of a command's word (30_encoding.md R91). -/
def EncodedFields.Statement (i : Instr) : Prop :=
  opField (encode i) = opcode i ∧ rsvField (encode i) = 0#14

theorem EncodedFields.of_format (i : Instr) : EncodedFields.Statement i :=
  ⟨opField_formatWord _ _ _, rsvField_formatWord _ _ _⟩

theorem EncodedFields.nop : EncodedFields.Statement .nop := of_format _
theorem EncodedFields.clear : EncodedFields.Statement .clear := of_format _
theorem EncodedFields.get (start : BitVec 7) (width : BitVec 6) : EncodedFields.Statement (.get start width) := of_format _
theorem EncodedFields.set (start : BitVec 7) (width : BitVec 6) : EncodedFields.Statement (.set start width) := of_format _
theorem EncodedFields.getp (start : BitVec 7) (width : BitVec 6) : EncodedFields.Statement (.getp start width) := of_format _
theorem EncodedFields.setp (start : BitVec 7) (width : BitVec 6) : EncodedFields.Statement (.setp start width) := of_format _
theorem EncodedFields.validate : EncodedFields.Statement .validate := of_format _
theorem EncodedFields.pack : EncodedFields.Statement .pack := of_format _
theorem EncodedFields.checksum : EncodedFields.Statement .checksum := of_format _
theorem EncodedFields.wrhash : EncodedFields.Statement .wrhash := of_format _
theorem EncodedFields.permute : EncodedFields.Statement .permute := of_format _
theorem EncodedFields.encode : EncodedFields.Statement .encode := of_format _
theorem EncodedFields.generate : EncodedFields.Statement .generate := of_format _
theorem EncodedFields.skclr : EncodedFields.Statement .skclr := of_format _
theorem EncodedFields.skpush : EncodedFields.Statement .skpush := of_format _

end Sys2Proof.Laws
end

