-- ==== Sys2Proof/Laws/State.lean ====
section
/-! SUPPORT. What each named update of the state does to each field: one lemma per field per update, true by rfl. -/

namespace Sys2Proof.Machine

section setRec

variable (s : State) (r : Record)

@[simp] theorem State.setRec_cfg : (s.setRec r).cfg = s.cfg := rfl
@[simp] theorem State.setRec_recReg : (s.setRec r).recReg = r := rfl
@[simp] theorem State.setRec_precReg : (s.setRec r).precReg = s.precReg := rfl
@[simp] theorem State.setRec_ck : (s.setRec r).ck = s.ck := rfl
@[simp] theorem State.setRec_dg : (s.setRec r).dg = s.dg := rfl
@[simp] theorem State.setRec_serial : (s.setRec r).serial = s.serial := rfl
@[simp] theorem State.setRec_serialValid : (s.setRec r).serialValid = s.serialValid := rfl
@[simp] theorem State.setRec_secret : (s.setRec r).secret = s.secret := rfl
@[simp] theorem State.setRec_secretLen : (s.setRec r).secretLen = s.secretLen := rfl
@[simp] theorem State.setRec_din : (s.setRec r).din = s.din := rfl
@[simp] theorem State.setRec_dout : (s.setRec r).dout = s.dout := rfl
@[simp] theorem State.setRec_argCount : (s.setRec r).argCount = s.argCount := rfl
@[simp] theorem State.setRec_argVersion : (s.setRec r).argVersion = s.argVersion := rfl
@[simp] theorem State.setRec_argAddons : (s.setRec r).argAddons = s.argAddons := rfl
@[simp] theorem State.setRec_unitSeed : (s.setRec r).unitSeed = s.unitSeed := rfl
@[simp] theorem State.setRec_batchSeed : (s.setRec r).batchSeed = s.batchSeed := rfl
@[simp] theorem State.setRec_ok : (s.setRec r).ok = s.ok := rfl
@[simp] theorem State.setRec_err : (s.setRec r).err = s.err := rfl
@[simp] theorem State.setRec_sticky : (s.setRec r).sticky = s.sticky := rfl
@[simp] theorem State.setRec_errCode : (s.setRec r).errCode = s.errCode := rfl
@[simp] theorem State.setRec_lastCmd : (s.setRec r).lastCmd = s.lastCmd := rfl
@[simp] theorem State.setRec_pending : (s.setRec r).pending = s.pending := rfl
@[simp] theorem State.setRec_reply : (s.setRec r).reply = s.reply := rfl

end setRec

section setPrec

variable (s : State) (r : Record)

@[simp] theorem State.setPrec_cfg : (s.setPrec r).cfg = s.cfg := rfl
@[simp] theorem State.setPrec_recReg : (s.setPrec r).recReg = s.recReg := rfl
@[simp] theorem State.setPrec_precReg : (s.setPrec r).precReg = r := rfl
@[simp] theorem State.setPrec_ck : (s.setPrec r).ck = s.ck := rfl
@[simp] theorem State.setPrec_dg : (s.setPrec r).dg = s.dg := rfl
@[simp] theorem State.setPrec_serial : (s.setPrec r).serial = s.serial := rfl
@[simp] theorem State.setPrec_serialValid : (s.setPrec r).serialValid = s.serialValid := rfl
@[simp] theorem State.setPrec_secret : (s.setPrec r).secret = s.secret := rfl
@[simp] theorem State.setPrec_secretLen : (s.setPrec r).secretLen = s.secretLen := rfl
@[simp] theorem State.setPrec_din : (s.setPrec r).din = s.din := rfl
@[simp] theorem State.setPrec_dout : (s.setPrec r).dout = s.dout := rfl
@[simp] theorem State.setPrec_argCount : (s.setPrec r).argCount = s.argCount := rfl
@[simp] theorem State.setPrec_argVersion : (s.setPrec r).argVersion = s.argVersion := rfl
@[simp] theorem State.setPrec_argAddons : (s.setPrec r).argAddons = s.argAddons := rfl
@[simp] theorem State.setPrec_unitSeed : (s.setPrec r).unitSeed = s.unitSeed := rfl
@[simp] theorem State.setPrec_batchSeed : (s.setPrec r).batchSeed = s.batchSeed := rfl
@[simp] theorem State.setPrec_ok : (s.setPrec r).ok = s.ok := rfl
@[simp] theorem State.setPrec_err : (s.setPrec r).err = s.err := rfl
@[simp] theorem State.setPrec_sticky : (s.setPrec r).sticky = s.sticky := rfl
@[simp] theorem State.setPrec_errCode : (s.setPrec r).errCode = s.errCode := rfl
@[simp] theorem State.setPrec_lastCmd : (s.setPrec r).lastCmd = s.lastCmd := rfl
@[simp] theorem State.setPrec_pending : (s.setPrec r).pending = s.pending := rfl
@[simp] theorem State.setPrec_reply : (s.setPrec r).reply = s.reply := rfl

end setPrec

section setDout

variable (s : State) (v : BitVec 64)

@[simp] theorem State.setDout_cfg : (s.setDout v).cfg = s.cfg := rfl
@[simp] theorem State.setDout_recReg : (s.setDout v).recReg = s.recReg := rfl
@[simp] theorem State.setDout_precReg : (s.setDout v).precReg = s.precReg := rfl
@[simp] theorem State.setDout_ck : (s.setDout v).ck = s.ck := rfl
@[simp] theorem State.setDout_dg : (s.setDout v).dg = s.dg := rfl
@[simp] theorem State.setDout_serial : (s.setDout v).serial = s.serial := rfl
@[simp] theorem State.setDout_serialValid : (s.setDout v).serialValid = s.serialValid := rfl
@[simp] theorem State.setDout_secret : (s.setDout v).secret = s.secret := rfl
@[simp] theorem State.setDout_secretLen : (s.setDout v).secretLen = s.secretLen := rfl
@[simp] theorem State.setDout_din : (s.setDout v).din = s.din := rfl
@[simp] theorem State.setDout_dout : (s.setDout v).dout = v := rfl
@[simp] theorem State.setDout_argCount : (s.setDout v).argCount = s.argCount := rfl
@[simp] theorem State.setDout_argVersion : (s.setDout v).argVersion = s.argVersion := rfl
@[simp] theorem State.setDout_argAddons : (s.setDout v).argAddons = s.argAddons := rfl
@[simp] theorem State.setDout_unitSeed : (s.setDout v).unitSeed = s.unitSeed := rfl
@[simp] theorem State.setDout_batchSeed : (s.setDout v).batchSeed = s.batchSeed := rfl
@[simp] theorem State.setDout_ok : (s.setDout v).ok = s.ok := rfl
@[simp] theorem State.setDout_err : (s.setDout v).err = s.err := rfl
@[simp] theorem State.setDout_sticky : (s.setDout v).sticky = s.sticky := rfl
@[simp] theorem State.setDout_errCode : (s.setDout v).errCode = s.errCode := rfl
@[simp] theorem State.setDout_lastCmd : (s.setDout v).lastCmd = s.lastCmd := rfl
@[simp] theorem State.setDout_pending : (s.setDout v).pending = s.pending := rfl
@[simp] theorem State.setDout_reply : (s.setDout v).reply = s.reply := rfl

end setDout

section setChecksum

variable (s : State) (d : Vector Byte 20) (c : BitVec 40)

@[simp] theorem State.setChecksum_cfg : (s.setChecksum d c).cfg = s.cfg := rfl
@[simp] theorem State.setChecksum_recReg : (s.setChecksum d c).recReg = s.recReg := rfl
@[simp] theorem State.setChecksum_precReg : (s.setChecksum d c).precReg = s.precReg := rfl
@[simp] theorem State.setChecksum_ck : (s.setChecksum d c).ck = c := rfl
@[simp] theorem State.setChecksum_dg : (s.setChecksum d c).dg = d := rfl
@[simp] theorem State.setChecksum_serial : (s.setChecksum d c).serial = s.serial := rfl
@[simp] theorem State.setChecksum_serialValid : (s.setChecksum d c).serialValid = s.serialValid := rfl
@[simp] theorem State.setChecksum_secret : (s.setChecksum d c).secret = s.secret := rfl
@[simp] theorem State.setChecksum_secretLen : (s.setChecksum d c).secretLen = s.secretLen := rfl
@[simp] theorem State.setChecksum_din : (s.setChecksum d c).din = s.din := rfl
@[simp] theorem State.setChecksum_dout : (s.setChecksum d c).dout = s.dout := rfl
@[simp] theorem State.setChecksum_argCount : (s.setChecksum d c).argCount = s.argCount := rfl
@[simp] theorem State.setChecksum_argVersion : (s.setChecksum d c).argVersion = s.argVersion := rfl
@[simp] theorem State.setChecksum_argAddons : (s.setChecksum d c).argAddons = s.argAddons := rfl
@[simp] theorem State.setChecksum_unitSeed : (s.setChecksum d c).unitSeed = s.unitSeed := rfl
@[simp] theorem State.setChecksum_batchSeed : (s.setChecksum d c).batchSeed = s.batchSeed := rfl
@[simp] theorem State.setChecksum_ok : (s.setChecksum d c).ok = s.ok := rfl
@[simp] theorem State.setChecksum_err : (s.setChecksum d c).err = s.err := rfl
@[simp] theorem State.setChecksum_sticky : (s.setChecksum d c).sticky = s.sticky := rfl
@[simp] theorem State.setChecksum_errCode : (s.setChecksum d c).errCode = s.errCode := rfl
@[simp] theorem State.setChecksum_lastCmd : (s.setChecksum d c).lastCmd = s.lastCmd := rfl
@[simp] theorem State.setChecksum_pending : (s.setChecksum d c).pending = s.pending := rfl
@[simp] theorem State.setChecksum_reply : (s.setChecksum d c).reply = s.reply := rfl

end setChecksum

section setSerial

variable (s : State) (b : Vector Byte 29) (v : Bool)

@[simp] theorem State.setSerial_cfg : (s.setSerial b v).cfg = s.cfg := rfl
@[simp] theorem State.setSerial_recReg : (s.setSerial b v).recReg = s.recReg := rfl
@[simp] theorem State.setSerial_precReg : (s.setSerial b v).precReg = s.precReg := rfl
@[simp] theorem State.setSerial_ck : (s.setSerial b v).ck = s.ck := rfl
@[simp] theorem State.setSerial_dg : (s.setSerial b v).dg = s.dg := rfl
@[simp] theorem State.setSerial_serial : (s.setSerial b v).serial = b := rfl
@[simp] theorem State.setSerial_serialValid : (s.setSerial b v).serialValid = v := rfl
@[simp] theorem State.setSerial_secret : (s.setSerial b v).secret = s.secret := rfl
@[simp] theorem State.setSerial_secretLen : (s.setSerial b v).secretLen = s.secretLen := rfl
@[simp] theorem State.setSerial_din : (s.setSerial b v).din = s.din := rfl
@[simp] theorem State.setSerial_dout : (s.setSerial b v).dout = s.dout := rfl
@[simp] theorem State.setSerial_argCount : (s.setSerial b v).argCount = s.argCount := rfl
@[simp] theorem State.setSerial_argVersion : (s.setSerial b v).argVersion = s.argVersion := rfl
@[simp] theorem State.setSerial_argAddons : (s.setSerial b v).argAddons = s.argAddons := rfl
@[simp] theorem State.setSerial_unitSeed : (s.setSerial b v).unitSeed = s.unitSeed := rfl
@[simp] theorem State.setSerial_batchSeed : (s.setSerial b v).batchSeed = s.batchSeed := rfl
@[simp] theorem State.setSerial_ok : (s.setSerial b v).ok = s.ok := rfl
@[simp] theorem State.setSerial_err : (s.setSerial b v).err = s.err := rfl
@[simp] theorem State.setSerial_sticky : (s.setSerial b v).sticky = s.sticky := rfl
@[simp] theorem State.setSerial_errCode : (s.setSerial b v).errCode = s.errCode := rfl
@[simp] theorem State.setSerial_lastCmd : (s.setSerial b v).lastCmd = s.lastCmd := rfl
@[simp] theorem State.setSerial_pending : (s.setSerial b v).pending = s.pending := rfl
@[simp] theorem State.setSerial_reply : (s.setSerial b v).reply = s.reply := rfl

end setSerial

section setSecret

variable (s : State) (m : Memory) (n : BitVec 8)

@[simp] theorem State.setSecret_cfg : (s.setSecret m n).cfg = s.cfg := rfl
@[simp] theorem State.setSecret_recReg : (s.setSecret m n).recReg = s.recReg := rfl
@[simp] theorem State.setSecret_precReg : (s.setSecret m n).precReg = s.precReg := rfl
@[simp] theorem State.setSecret_ck : (s.setSecret m n).ck = s.ck := rfl
@[simp] theorem State.setSecret_dg : (s.setSecret m n).dg = s.dg := rfl
@[simp] theorem State.setSecret_serial : (s.setSecret m n).serial = s.serial := rfl
@[simp] theorem State.setSecret_serialValid : (s.setSecret m n).serialValid = s.serialValid := rfl
@[simp] theorem State.setSecret_secret : (s.setSecret m n).secret = m := rfl
@[simp] theorem State.setSecret_secretLen : (s.setSecret m n).secretLen = n := rfl
@[simp] theorem State.setSecret_din : (s.setSecret m n).din = s.din := rfl
@[simp] theorem State.setSecret_dout : (s.setSecret m n).dout = s.dout := rfl
@[simp] theorem State.setSecret_argCount : (s.setSecret m n).argCount = s.argCount := rfl
@[simp] theorem State.setSecret_argVersion : (s.setSecret m n).argVersion = s.argVersion := rfl
@[simp] theorem State.setSecret_argAddons : (s.setSecret m n).argAddons = s.argAddons := rfl
@[simp] theorem State.setSecret_unitSeed : (s.setSecret m n).unitSeed = s.unitSeed := rfl
@[simp] theorem State.setSecret_batchSeed : (s.setSecret m n).batchSeed = s.batchSeed := rfl
@[simp] theorem State.setSecret_ok : (s.setSecret m n).ok = s.ok := rfl
@[simp] theorem State.setSecret_err : (s.setSecret m n).err = s.err := rfl
@[simp] theorem State.setSecret_sticky : (s.setSecret m n).sticky = s.sticky := rfl
@[simp] theorem State.setSecret_errCode : (s.setSecret m n).errCode = s.errCode := rfl
@[simp] theorem State.setSecret_lastCmd : (s.setSecret m n).lastCmd = s.lastCmd := rfl
@[simp] theorem State.setSecret_pending : (s.setSecret m n).pending = s.pending := rfl
@[simp] theorem State.setSecret_reply : (s.setSecret m n).reply = s.reply := rfl

end setSecret

section setLastCmd

variable (s : State) (c : Word)

@[simp] theorem State.setLastCmd_cfg : (s.setLastCmd c).cfg = s.cfg := rfl
@[simp] theorem State.setLastCmd_recReg : (s.setLastCmd c).recReg = s.recReg := rfl
@[simp] theorem State.setLastCmd_precReg : (s.setLastCmd c).precReg = s.precReg := rfl
@[simp] theorem State.setLastCmd_ck : (s.setLastCmd c).ck = s.ck := rfl
@[simp] theorem State.setLastCmd_dg : (s.setLastCmd c).dg = s.dg := rfl
@[simp] theorem State.setLastCmd_serial : (s.setLastCmd c).serial = s.serial := rfl
@[simp] theorem State.setLastCmd_serialValid : (s.setLastCmd c).serialValid = s.serialValid := rfl
@[simp] theorem State.setLastCmd_secret : (s.setLastCmd c).secret = s.secret := rfl
@[simp] theorem State.setLastCmd_secretLen : (s.setLastCmd c).secretLen = s.secretLen := rfl
@[simp] theorem State.setLastCmd_din : (s.setLastCmd c).din = s.din := rfl
@[simp] theorem State.setLastCmd_dout : (s.setLastCmd c).dout = s.dout := rfl
@[simp] theorem State.setLastCmd_argCount : (s.setLastCmd c).argCount = s.argCount := rfl
@[simp] theorem State.setLastCmd_argVersion : (s.setLastCmd c).argVersion = s.argVersion := rfl
@[simp] theorem State.setLastCmd_argAddons : (s.setLastCmd c).argAddons = s.argAddons := rfl
@[simp] theorem State.setLastCmd_unitSeed : (s.setLastCmd c).unitSeed = s.unitSeed := rfl
@[simp] theorem State.setLastCmd_batchSeed : (s.setLastCmd c).batchSeed = s.batchSeed := rfl
@[simp] theorem State.setLastCmd_ok : (s.setLastCmd c).ok = s.ok := rfl
@[simp] theorem State.setLastCmd_err : (s.setLastCmd c).err = s.err := rfl
@[simp] theorem State.setLastCmd_sticky : (s.setLastCmd c).sticky = s.sticky := rfl
@[simp] theorem State.setLastCmd_errCode : (s.setLastCmd c).errCode = s.errCode := rfl
@[simp] theorem State.setLastCmd_lastCmd : (s.setLastCmd c).lastCmd = c := rfl
@[simp] theorem State.setLastCmd_pending : (s.setLastCmd c).pending = s.pending := rfl
@[simp] theorem State.setLastCmd_reply : (s.setLastCmd c).reply = s.reply := rfl

end setLastCmd

section setReply

variable (s : State) (v : Word)

@[simp] theorem State.setReply_cfg : (s.setReply v).cfg = s.cfg := rfl
@[simp] theorem State.setReply_recReg : (s.setReply v).recReg = s.recReg := rfl
@[simp] theorem State.setReply_precReg : (s.setReply v).precReg = s.precReg := rfl
@[simp] theorem State.setReply_ck : (s.setReply v).ck = s.ck := rfl
@[simp] theorem State.setReply_dg : (s.setReply v).dg = s.dg := rfl
@[simp] theorem State.setReply_serial : (s.setReply v).serial = s.serial := rfl
@[simp] theorem State.setReply_serialValid : (s.setReply v).serialValid = s.serialValid := rfl
@[simp] theorem State.setReply_secret : (s.setReply v).secret = s.secret := rfl
@[simp] theorem State.setReply_secretLen : (s.setReply v).secretLen = s.secretLen := rfl
@[simp] theorem State.setReply_din : (s.setReply v).din = s.din := rfl
@[simp] theorem State.setReply_dout : (s.setReply v).dout = s.dout := rfl
@[simp] theorem State.setReply_argCount : (s.setReply v).argCount = s.argCount := rfl
@[simp] theorem State.setReply_argVersion : (s.setReply v).argVersion = s.argVersion := rfl
@[simp] theorem State.setReply_argAddons : (s.setReply v).argAddons = s.argAddons := rfl
@[simp] theorem State.setReply_unitSeed : (s.setReply v).unitSeed = s.unitSeed := rfl
@[simp] theorem State.setReply_batchSeed : (s.setReply v).batchSeed = s.batchSeed := rfl
@[simp] theorem State.setReply_ok : (s.setReply v).ok = s.ok := rfl
@[simp] theorem State.setReply_err : (s.setReply v).err = s.err := rfl
@[simp] theorem State.setReply_sticky : (s.setReply v).sticky = s.sticky := rfl
@[simp] theorem State.setReply_errCode : (s.setReply v).errCode = s.errCode := rfl
@[simp] theorem State.setReply_lastCmd : (s.setReply v).lastCmd = s.lastCmd := rfl
@[simp] theorem State.setReply_pending : (s.setReply v).pending = s.pending := rfl
@[simp] theorem State.setReply_reply : (s.setReply v).reply = some v := rfl

end setReply

section raiseCmdError

variable (s : State) (e : CmdError)

@[simp] theorem State.raiseCmdError_cfg : (s.raiseCmdError e).cfg = s.cfg := rfl
@[simp] theorem State.raiseCmdError_recReg : (s.raiseCmdError e).recReg = s.recReg := rfl
@[simp] theorem State.raiseCmdError_precReg : (s.raiseCmdError e).precReg = s.precReg := rfl
@[simp] theorem State.raiseCmdError_ck : (s.raiseCmdError e).ck = s.ck := rfl
@[simp] theorem State.raiseCmdError_dg : (s.raiseCmdError e).dg = s.dg := rfl
@[simp] theorem State.raiseCmdError_serial : (s.raiseCmdError e).serial = s.serial := rfl
@[simp] theorem State.raiseCmdError_serialValid : (s.raiseCmdError e).serialValid = s.serialValid := rfl
@[simp] theorem State.raiseCmdError_secret : (s.raiseCmdError e).secret = s.secret := rfl
@[simp] theorem State.raiseCmdError_secretLen : (s.raiseCmdError e).secretLen = s.secretLen := rfl
@[simp] theorem State.raiseCmdError_din : (s.raiseCmdError e).din = s.din := rfl
@[simp] theorem State.raiseCmdError_dout : (s.raiseCmdError e).dout = s.dout := rfl
@[simp] theorem State.raiseCmdError_argCount : (s.raiseCmdError e).argCount = s.argCount := rfl
@[simp] theorem State.raiseCmdError_argVersion : (s.raiseCmdError e).argVersion = s.argVersion := rfl
@[simp] theorem State.raiseCmdError_argAddons : (s.raiseCmdError e).argAddons = s.argAddons := rfl
@[simp] theorem State.raiseCmdError_unitSeed : (s.raiseCmdError e).unitSeed = s.unitSeed := rfl
@[simp] theorem State.raiseCmdError_batchSeed : (s.raiseCmdError e).batchSeed = s.batchSeed := rfl
@[simp] theorem State.raiseCmdError_ok : (s.raiseCmdError e).ok = false := rfl
@[simp] theorem State.raiseCmdError_err : (s.raiseCmdError e).err = true := rfl
@[simp] theorem State.raiseCmdError_sticky : (s.raiseCmdError e).sticky = true := rfl
@[simp] theorem State.raiseCmdError_errCode : (s.raiseCmdError e).errCode = e.code := rfl
@[simp] theorem State.raiseCmdError_lastCmd : (s.raiseCmdError e).lastCmd = s.lastCmd := rfl
@[simp] theorem State.raiseCmdError_pending : (s.raiseCmdError e).pending = s.pending := rfl
@[simp] theorem State.raiseCmdError_reply : (s.raiseCmdError e).reply = s.reply := rfl

end raiseCmdError

section complete

variable (s : State)

@[simp] theorem State.complete_cfg : s.complete.cfg = s.cfg := rfl
@[simp] theorem State.complete_recReg : s.complete.recReg = s.recReg := rfl
@[simp] theorem State.complete_precReg : s.complete.precReg = s.precReg := rfl
@[simp] theorem State.complete_ck : s.complete.ck = s.ck := rfl
@[simp] theorem State.complete_dg : s.complete.dg = s.dg := rfl
@[simp] theorem State.complete_serial : s.complete.serial = s.serial := rfl
@[simp] theorem State.complete_serialValid : s.complete.serialValid = s.serialValid := rfl
@[simp] theorem State.complete_secret : s.complete.secret = s.secret := rfl
@[simp] theorem State.complete_secretLen : s.complete.secretLen = s.secretLen := rfl
@[simp] theorem State.complete_din : s.complete.din = s.din := rfl
@[simp] theorem State.complete_dout : s.complete.dout = s.dout := rfl
@[simp] theorem State.complete_argCount : s.complete.argCount = s.argCount := rfl
@[simp] theorem State.complete_argVersion : s.complete.argVersion = s.argVersion := rfl
@[simp] theorem State.complete_argAddons : s.complete.argAddons = s.argAddons := rfl
@[simp] theorem State.complete_unitSeed : s.complete.unitSeed = s.unitSeed := rfl
@[simp] theorem State.complete_batchSeed : s.complete.batchSeed = s.batchSeed := rfl
@[simp] theorem State.complete_ok : s.complete.ok = true := rfl
@[simp] theorem State.complete_err : s.complete.err = false := rfl
@[simp] theorem State.complete_sticky : s.complete.sticky = s.sticky := rfl
@[simp] theorem State.complete_errCode : s.complete.errCode = 0#4 := rfl
@[simp] theorem State.complete_lastCmd : s.complete.lastCmd = s.lastCmd := rfl
@[simp] theorem State.complete_pending : s.complete.pending = s.pending := rfl
@[simp] theorem State.complete_reply : s.complete.reply = s.reply := rfl

end complete

section writeStatus

variable (s : State) (v : Word)

@[simp] theorem State.writeStatus_cfg : (s.writeStatus v).cfg = s.cfg := rfl
@[simp] theorem State.writeStatus_recReg : (s.writeStatus v).recReg = s.recReg := rfl
@[simp] theorem State.writeStatus_precReg : (s.writeStatus v).precReg = s.precReg := rfl
@[simp] theorem State.writeStatus_ck : (s.writeStatus v).ck = s.ck := rfl
@[simp] theorem State.writeStatus_dg : (s.writeStatus v).dg = s.dg := rfl
@[simp] theorem State.writeStatus_serial : (s.writeStatus v).serial = s.serial := rfl
@[simp] theorem State.writeStatus_serialValid : (s.writeStatus v).serialValid = s.serialValid := rfl
@[simp] theorem State.writeStatus_secret : (s.writeStatus v).secret = s.secret := rfl
@[simp] theorem State.writeStatus_secretLen : (s.writeStatus v).secretLen = s.secretLen := rfl
@[simp] theorem State.writeStatus_din : (s.writeStatus v).din = s.din := rfl
@[simp] theorem State.writeStatus_dout : (s.writeStatus v).dout = s.dout := rfl
@[simp] theorem State.writeStatus_argCount : (s.writeStatus v).argCount = s.argCount := rfl
@[simp] theorem State.writeStatus_argVersion : (s.writeStatus v).argVersion = s.argVersion := rfl
@[simp] theorem State.writeStatus_argAddons : (s.writeStatus v).argAddons = s.argAddons := rfl
@[simp] theorem State.writeStatus_unitSeed : (s.writeStatus v).unitSeed = s.unitSeed := rfl
@[simp] theorem State.writeStatus_batchSeed : (s.writeStatus v).batchSeed = s.batchSeed := rfl
@[simp] theorem State.writeStatus_ok : (s.writeStatus v).ok = s.ok := rfl
@[simp] theorem State.writeStatus_err : (s.writeStatus v).err = s.err := rfl
@[simp] theorem State.writeStatus_sticky : (s.writeStatus v).sticky = (s.sticky && !v.getLsbD 2) := rfl
@[simp] theorem State.writeStatus_errCode : (s.writeStatus v).errCode = s.errCode := rfl
@[simp] theorem State.writeStatus_lastCmd : (s.writeStatus v).lastCmd = s.lastCmd := rfl
@[simp] theorem State.writeStatus_pending : (s.writeStatus v).pending = s.pending := rfl
@[simp] theorem State.writeStatus_reply : (s.writeStatus v).reply = s.reply := rfl

end writeStatus

section accept

variable (s : State)

@[simp] theorem State.accept_cfg : s.accept.cfg = s.cfg := rfl
@[simp] theorem State.accept_recReg : s.accept.recReg = s.recReg := rfl
@[simp] theorem State.accept_precReg : s.accept.precReg = s.precReg := rfl
@[simp] theorem State.accept_ck : s.accept.ck = s.ck := rfl
@[simp] theorem State.accept_dg : s.accept.dg = s.dg := rfl
@[simp] theorem State.accept_serial : s.accept.serial = s.serial := rfl
@[simp] theorem State.accept_serialValid : s.accept.serialValid = s.serialValid := rfl
@[simp] theorem State.accept_secret : s.accept.secret = s.secret := rfl
@[simp] theorem State.accept_secretLen : s.accept.secretLen = s.secretLen := rfl
@[simp] theorem State.accept_din : s.accept.din = s.din := rfl
@[simp] theorem State.accept_dout : s.accept.dout = s.dout := rfl
@[simp] theorem State.accept_argCount : s.accept.argCount = s.argCount := rfl
@[simp] theorem State.accept_argVersion : s.accept.argVersion = s.argVersion := rfl
@[simp] theorem State.accept_argAddons : s.accept.argAddons = s.argAddons := rfl
@[simp] theorem State.accept_unitSeed : s.accept.unitSeed = s.unitSeed := rfl
@[simp] theorem State.accept_batchSeed : s.accept.batchSeed = s.batchSeed := rfl
@[simp] theorem State.accept_ok : s.accept.ok = s.ok := rfl
@[simp] theorem State.accept_err : s.accept.err = s.err := rfl
@[simp] theorem State.accept_sticky : s.accept.sticky = s.sticky := rfl
@[simp] theorem State.accept_errCode : s.accept.errCode = s.errCode := rfl
@[simp] theorem State.accept_lastCmd : s.accept.lastCmd = s.lastCmd := rfl
@[simp] theorem State.accept_pending : s.accept.pending = s.pending.tail := rfl
@[simp] theorem State.accept_reply : s.accept.reply = none := rfl

end accept

/-! The state a command that completes leaves, with its written value as a variable. (Cite these with the value a
command writes, instead of asking for rfl on the command's own expression: unfolding a 125-cell value is slow.) -/

section whole

variable (s : State)

theorem State.setRec_complete (r : Record) :
    (s.setRec r).complete = { s with recReg := r, ok := true, err := false, errCode := 0#4 } := rfl

theorem State.setPrec_complete (r : Record) :
    (s.setPrec r).complete = { s with precReg := r, ok := true, err := false, errCode := 0#4 } := rfl

theorem State.setDout_complete (v : BitVec 64) :
    (s.setDout v).complete = { s with dout := v, ok := true, err := false, errCode := 0#4 } := rfl

theorem State.setChecksum_complete (d : Vector Byte 20) (c : BitVec 40) :
    (s.setChecksum d c).complete = { s with dg := d, ck := c, ok := true, err := false, errCode := 0#4 } := rfl

theorem State.setSerial_complete (b : Vector Byte 29) (v : Bool) :
    (s.setSerial b v).complete =
      { s with serial := b, serialValid := v, ok := true, err := false, errCode := 0#4 } := rfl

theorem State.setSecret_complete (m : Memory) (n : BitVec 8) :
    (s.setSecret m n).complete =
      { s with secret := m, secretLen := n, ok := true, err := false, errCode := 0#4 } := rfl

end whole

end Sys2Proof.Machine
end

