-- ==== Sys2Proof/Laws/Pipeline.lean ====
section
/-! SUPPORT. What the pipeline of GENERATE leaves in each register, what one write of the encoder leaves, and everything
a command that answers a next state can have done. -/

namespace Sys2Proof.Machine

/-! The pipeline (45_generate.md R250) under any digest, register by register. -/

theorem State.pipelineBodyWith_recReg (D : Digest160) (s : State) :
    (s.pipelineBodyWith D).recReg = setField (packedRecord s) .hash (s.pipelineBodyWith D).ck := by
  simp only [State.pipelineBodyWith, State.encodeBody, State.setSerial_recReg, State.permuteBody, State.setPrec_recReg,
    State.writeHashBody, State.setRec_recReg, State.checksumBodyWith, State.setChecksum_recReg, State.packBody,
    State.setSerial_ck, State.setPrec_ck, State.setRec_ck]

theorem State.pipelineBodyWith_precReg (D : Digest160) (s : State) : (s.pipelineBodyWith D).precReg = permuteRecord (s.pipelineBodyWith D).recReg := by
  simp only [State.pipelineBodyWith, State.encodeBody, State.setSerial_recReg, State.setSerial_precReg, State.permuteBody,
    State.setPrec_recReg, State.setPrec_precReg]

theorem State.pipelineBodyWith_serial (D : Digest160) (s : State) :
    (s.pipelineBodyWith D).serial = encodeSerial s.cfg (s.pipelineBodyWith D).precReg s.serial := by
  simp only [State.pipelineBodyWith, State.encodeBody, State.setSerial_serial, State.setSerial_precReg, State.permuteBody,
    State.setPrec_cfg, State.setPrec_serial, State.writeHashBody, State.setRec_cfg, State.setRec_serial,
    State.checksumBodyWith, State.setChecksum_cfg, State.setChecksum_serial, State.packBody]

theorem State.pipelineBodyWith_dg (D : Digest160) (s : State) :
    (s.pipelineBodyWith D).dg = D (digestMessage (s.setRec (packedRecord s))) := by
  simp only [State.pipelineBodyWith, State.encodeBody, State.setSerial_dg, State.permuteBody, State.setPrec_dg,
    State.writeHashBody, State.setRec_dg, State.checksumBodyWith, State.setChecksum_dg, State.packBody]

theorem State.pipelineBodyWith_ck (D : Digest160) (s : State) : (s.pipelineBodyWith D).ck = fold (s.pipelineBodyWith D).dg := by
  simp only [State.pipelineBodyWith, State.encodeBody, State.setSerial_dg, State.permuteBody, State.setPrec_dg,
    State.writeHashBody, State.setRec_dg, State.checksumBodyWith, State.setChecksum_dg, State.setSerial_ck,
    State.setPrec_ck, State.setRec_ck, State.setChecksum_ck]

/-- The pipeline's frame: it writes REC, PREC, CK, DG, SERIAL and SERIAL_VALID. -/
theorem State.pipelineBodyWith_frame (D : Digest160) (s : State) :
    (s.pipelineBodyWith D) = { s with
      recReg := (s.pipelineBodyWith D).recReg, precReg := (s.pipelineBodyWith D).precReg, ck := (s.pipelineBodyWith D).ck
      dg := (s.pipelineBodyWith D).dg, serial := (s.pipelineBodyWith D).serial, serialValid := true } := by
  simp only [State.pipelineBodyWith, State.packBody, State.checksumBodyWith, State.writeHashBody, State.permuteBody,
    State.encodeBody]
  generalize packedRecord s = r
  generalize D _ = d
  generalize fold d = c
  simp only [State.setRec_recReg, State.setChecksum_recReg, State.setChecksum_ck, State.setPrec_precReg,
    State.setPrec_serial, State.setRec_cfg, State.setPrec_cfg, State.setChecksum_cfg]
  generalize setField r .hash c = r2
  generalize permuteRecord r2 = r3
  simp only [State.setRec_serial, State.setChecksum_serial]
  generalize encodeSerial _ _ _ = x
  rfl

/-! The pipeline under the configuration's digest. -/

theorem State.pipelineBody_recReg (s : State) :
    s.pipelineBody.recReg = setField (packedRecord s) .hash s.pipelineBody.ck := State.pipelineBodyWith_recReg _ s

theorem State.pipelineBody_precReg (s : State) : s.pipelineBody.precReg = permuteRecord s.pipelineBody.recReg :=
  State.pipelineBodyWith_precReg _ s

theorem State.pipelineBody_serial (s : State) :
    s.pipelineBody.serial = encodeSerial s.cfg s.pipelineBody.precReg s.serial := State.pipelineBodyWith_serial _ s

theorem State.pipelineBody_dg (s : State) :
    s.pipelineBody.dg = digest160 s.cfg.digest (digestMessage (s.setRec (packedRecord s))) :=
  State.pipelineBodyWith_dg _ s

theorem State.pipelineBody_ck (s : State) : s.pipelineBody.ck = fold s.pipelineBody.dg := State.pipelineBodyWith_ck _ s

/-- The pipeline's frame under the configuration's digest. -/
theorem State.pipelineBody_frame (s : State) :
    s.pipelineBody = { s with
      recReg := s.pipelineBody.recReg, precReg := s.pipelineBody.precReg, ck := s.pipelineBody.ck
      dg := s.pipelineBody.dg, serial := s.pipelineBody.serial, serialValid := true } :=
  State.pipelineBodyWith_frame _ s

/-! The encoder (44_encode.md R231, R232), one write at a time. -/

theorem slotPosition_injective (a b : Fin 25) (h : slotPosition a = slotPosition b) : a = b := by
  revert a b; decide

theorem slotPosition_not_dash (a : Fin 25) : slotPosition a ∉ dashPositions := by revert a; decide

theorem writeSymbol_getElem (cfg : Config) (p : Record) (out : Vector Byte 29) (i : Fin 25) (q : Fin 29) :
    (writeSymbol cfg p out i)[q] =
      if slotPosition cfg.slotMap[i] = q then symbolOf cfg (group p i) else out[q] := by
  show (out.set (slotPosition cfg.slotMap[i]).val (symbolOf cfg (group p i))
    (slotPosition cfg.slotMap[i]).isLt)[q.val] = _
  rw [Vector.getElem_set]
  simp only [Fin.ext_iff]
  rfl

/-! Every command. -/

/-- The registers a completed command can have written, and with what shape of value. -/
structure Wrote (i : Instr) (s u : State) : Prop where
  cfg : u.cfg = s.cfg
  operands : u.din = s.din ∧ u.argCount = s.argCount ∧ u.argVersion = s.argVersion ∧ u.argAddons = s.argAddons ∧
    u.unitSeed = s.unitSeed ∧ u.batchSeed = s.batchSeed
  status : u.ok = s.ok ∧ u.err = s.err ∧ u.sticky = s.sticky ∧ u.errCode = s.errCode
  port : u.lastCmd = s.lastCmd ∧ u.pending = s.pending ∧ u.reply = s.reply
  recReg : u.recReg = s.recReg ∨ i = .clear ∨ (∃ start width, i = .set start width) ∨ i = .pack ∨ i = .wrhash ∨
    i = .generate
  precReg : u.precReg = s.precReg ∨ i = .permute ∨ (∃ start width, i = .setp start width) ∨ i = .generate
  checksum : (u.ck = s.ck ∧ u.dg = s.dg) ∨ ((i = .checksum ∨ i = .generate) ∧ u.ck = fold u.dg)
  serial : (u.serial = s.serial ∧ u.serialValid = s.serialValid) ∨
    ((i = .encode ∨ i = .generate) ∧ u.serialValid = true ∧ ∃ p out, u.serial = encodeSerial s.cfg p out)
  secret : (u.secret = s.secret ∧ u.secretLen = s.secretLen) ∨
    (i = .skclr ∧ u.secret = s.secret ∧ u.secretLen = 0#8) ∨
    (i = .skpush ∧ s.secretLen.toNat ≠ s.cfg.secretMax ∧
      u.secret = Memory.write s.secret s.secretLen.toNat (s.din.extractLsb' 0 8) ∧ u.secretLen = s.secretLen + 1#8)
  dout : u.dout = s.dout ∨
    (((∃ start width, i = .get start width) ∨ (∃ start width, i = .getp start width)) ∧
      ∃ a start width, u.dout = readSpan a start width)

theorem Wrote.of_setRec (i : Instr) (s : State) (r : Record)
    (h : i = .clear ∨ (∃ start width, i = .set start width) ∨ i = .pack ∨ i = .wrhash ∨ i = .generate) :
    Wrote i s (s.setRec r) :=
  ⟨rfl, ⟨rfl, rfl, rfl, rfl, rfl, rfl⟩, ⟨rfl, rfl, rfl, rfl⟩, ⟨rfl, rfl, rfl⟩, .inr h, .inl rfl, .inl ⟨rfl, rfl⟩,
    .inl ⟨rfl, rfl⟩, .inl ⟨rfl, rfl⟩, .inl rfl⟩

theorem Wrote.of_setPrec (i : Instr) (s : State) (r : Record)
    (h : i = .permute ∨ (∃ start width, i = .setp start width) ∨ i = .generate) : Wrote i s (s.setPrec r) :=
  ⟨rfl, ⟨rfl, rfl, rfl, rfl, rfl, rfl⟩, ⟨rfl, rfl, rfl, rfl⟩, ⟨rfl, rfl, rfl⟩, .inl rfl, .inr h, .inl ⟨rfl, rfl⟩,
    .inl ⟨rfl, rfl⟩, .inl ⟨rfl, rfl⟩, .inl rfl⟩

theorem Wrote.of_setDout (i : Instr) (s : State) (v : BitVec 64)
    (h : ((∃ start width, i = .get start width) ∨ (∃ start width, i = .getp start width)) ∧
      ∃ a start width, v = readSpan a start width) : Wrote i s (s.setDout v) :=
  ⟨rfl, ⟨rfl, rfl, rfl, rfl, rfl, rfl⟩, ⟨rfl, rfl, rfl, rfl⟩, ⟨rfl, rfl, rfl⟩, .inl rfl, .inl rfl, .inl ⟨rfl, rfl⟩,
    .inl ⟨rfl, rfl⟩, .inl ⟨rfl, rfl⟩, .inr h⟩

theorem Wrote.of_setChecksum (s : State) (d : Vector Byte 20) : Wrote .checksum s (s.setChecksum d (fold d)) :=
  ⟨rfl, ⟨rfl, rfl, rfl, rfl, rfl, rfl⟩, ⟨rfl, rfl, rfl, rfl⟩, ⟨rfl, rfl, rfl⟩, .inl rfl, .inl rfl,
    .inr ⟨.inl rfl, rfl⟩, .inl ⟨rfl, rfl⟩, .inl ⟨rfl, rfl⟩, .inl rfl⟩

theorem Wrote.of_same (i : Instr) (s : State) : Wrote i s s :=
  ⟨rfl, ⟨rfl, rfl, rfl, rfl, rfl, rfl⟩, ⟨rfl, rfl, rfl, rfl⟩, ⟨rfl, rfl, rfl⟩, .inl rfl, .inl rfl, .inl ⟨rfl, rfl⟩,
    .inl ⟨rfl, rfl⟩, .inl ⟨rfl, rfl⟩, .inl rfl⟩

theorem Wrote.of_encode (s : State) : Wrote .encode s s.encodeBody := by
  have h : ∃ p out, encodeSerial s.cfg s.precReg s.serial = encodeSerial s.cfg p out := ⟨_, _, rfl⟩
  unfold State.encodeBody
  generalize encodeSerial s.cfg s.precReg s.serial = x at *
  exact ⟨rfl, ⟨rfl, rfl, rfl, rfl, rfl, rfl⟩, ⟨rfl, rfl, rfl, rfl⟩, ⟨rfl, rfl, rfl⟩, .inl rfl, .inl rfl,
    .inl ⟨rfl, rfl⟩, .inr ⟨.inl rfl, rfl, h⟩, .inl ⟨rfl, rfl⟩, .inl rfl⟩

theorem Wrote.of_pipeline (D : Digest160) (s : State) : Wrote .generate s (s.pipelineBodyWith D) := by
  have hck := State.pipelineBodyWith_ck D s
  have hserial : ∃ p out, (s.pipelineBodyWith D).serial = encodeSerial s.cfg p out :=
    ⟨_, _, State.pipelineBodyWith_serial D s⟩
  have frame := State.pipelineBodyWith_frame D s
  generalize s.pipelineBodyWith D = u at *
  rw [frame]
  exact ⟨rfl, ⟨rfl, rfl, rfl, rfl, rfl, rfl⟩, ⟨rfl, rfl, rfl, rfl⟩, ⟨rfl, rfl, rfl⟩,
    .inr (.inr (.inr (.inr (.inr rfl)))), .inr (.inr (.inr rfl)), .inr ⟨.inr rfl, hck⟩,
    .inr ⟨.inr rfl, rfl, hserial⟩, .inl ⟨rfl, rfl⟩, .inl rfl⟩

/-- The host's machine is the machine with the configuration's digest as the argument. -/
theorem exec_eq_execWith (i : Instr) (s : State) : exec i s = execWith (digest160 s.cfg.digest) i s := by
  cases i <;> rfl

/-- Only CHECKSUM and GENERATE read the digest. -/
theorem execWith_eq_exec (D : Digest160) {i : Instr} (hc : i ≠ .checksum) (hg : i ≠ .generate) (s : State) :
    execWith D i s = exec i s := by
  cases i <;> first | rfl | exact absurd rfl hc | exact absurd rfl hg

/-- Everything a command that answers a next state can have done, whatever the digest: it completed, or it reported an
error, and GENERATE cleared the serial before its report. -/
theorem execWith_next {D : Digest160} {i : Instr} {s t : State} (h : execWith D i s = .next t) :
    (∃ u, t = u.complete ∧ Wrote i s u) ∨
    (∃ e : CmdError, t = s.raiseCmdError e ∨ (i = .generate ∧ t = s.clearSerial.raiseCmdError e)) := by
  have done : ∀ u, endCommand s (.ok u) = .next t → t = u.complete := fun u h => (Host.Outcome.next.inj h).symm
  have span : ∀ {start width u}, endCommand s (withSpan start width u) = .next t → Wrote i s u →
      (∃ u, t = u.complete ∧ Wrote i s u) ∨
        (∃ e : CmdError, t = s.raiseCmdError e ∨ (i = .generate ∧ t = s.clearSerial.raiseCmdError e)) := by
    intro start width u h hw
    by_cases hs : SpanInRecord start width
    · rw [withSpan_inside hs] at h
      exact .inl ⟨u, done u h, hw⟩
    · rw [withSpan_outside hs] at h
      exact .inr ⟨_, .inl (Host.Outcome.next.inj h).symm⟩
  have args : ∀ {u}, endCommand s ((checkArgs s).map fun _ => u) = .next t → Wrote i s u →
      (∃ u, t = u.complete ∧ Wrote i s u) ∨
        (∃ e : CmdError, t = s.raiseCmdError e ∨ (i = .generate ∧ t = s.clearSerial.raiseCmdError e)) := by
    intro u h hw
    cases hc : checkArgs s with
    | ok _ => rw [hc] at h; exact .inl ⟨u, done u h, hw⟩
    | error e => rw [hc] at h; exact .inr ⟨e, .inl (Host.Outcome.next.inj h).symm⟩
  cases i with
  | nop => exact .inl ⟨s, done s h, .of_same _ s⟩
  | clear => exact .inl ⟨_, done _ h, .of_setRec _ s _ (.inl rfl)⟩
  | get a b => exact span h (.of_setDout _ s _ ⟨.inl ⟨a, b, rfl⟩, _, _, _, rfl⟩)
  | set a b => exact span h (.of_setRec _ s _ (.inr (.inl ⟨a, b, rfl⟩)))
  | getp a b => exact span h (.of_setDout _ s _ ⟨.inr ⟨a, b, rfl⟩, _, _, _, rfl⟩)
  | setp a b => exact span h (.of_setPrec _ s _ (.inr (.inl ⟨a, b, rfl⟩)))
  | validate => exact args h (.of_same _ s)
  | pack => exact args (u := s.packBody) h (.of_setRec _ s _ (.inr (.inr (.inl rfl))))
  | checksum => exact .inl ⟨s.checksumBodyWith D, done _ h, .of_setChecksum s _⟩
  | wrhash => exact .inl ⟨s.writeHashBody, done _ h, .of_setRec _ s _ (.inr (.inr (.inr (.inl rfl))))⟩
  | permute => exact .inl ⟨s.permuteBody, done _ h, .of_setPrec _ s _ (.inl rfl)⟩
  | encode => exact .inl ⟨s.encodeBody, done _ h, .of_encode s⟩
  | generate =>
    have h : execGenerateWith D s = .next t := h
    unfold execGenerateWith at h
    split at h
    · exact .inl ⟨s.pipelineBodyWith D, done _ h, .of_pipeline D s⟩
    · exact .inr ⟨_, .inr ⟨rfl, (Host.Outcome.next.inj h).symm⟩⟩
  | skclr =>
    refine .inl ⟨_, done _ h, ?_⟩
    exact ⟨rfl, ⟨rfl, rfl, rfl, rfl, rfl, rfl⟩, ⟨rfl, rfl, rfl, rfl⟩, ⟨rfl, rfl, rfl⟩, .inl rfl, .inl rfl,
      .inl ⟨rfl, rfl⟩, .inl ⟨rfl, rfl⟩, .inr (.inl ⟨rfl, rfl, rfl⟩), .inl rfl⟩
  | skpush =>
    rcases endCommand_next h with ⟨u, hu, rfl⟩ | ⟨e, -, rfl⟩
    · left
      split at hu
      · cases hu
      · next hfull =>
        cases hu
        exact ⟨_, rfl, rfl, ⟨rfl, rfl, rfl, rfl, rfl, rfl⟩, ⟨rfl, rfl, rfl, rfl⟩, ⟨rfl, rfl, rfl⟩, .inl rfl, .inl rfl,
          .inl ⟨rfl, rfl⟩, .inl ⟨rfl, rfl⟩, .inr (.inr ⟨rfl, hfull, rfl, rfl⟩), .inl rfl⟩
    · exact .inr ⟨e, .inl rfl⟩

/-- Everything a command that answers a next state can have done. -/
theorem exec_next {i : Instr} {s t : State} (h : exec i s = .next t) :
    (∃ u, t = u.complete ∧ Wrote i s u) ∨
    (∃ e : CmdError, t = s.raiseCmdError e ∨ (i = .generate ∧ t = s.clearSerial.raiseCmdError e)) :=
  execWith_next ((exec_eq_execWith i s).symm.trans h)

/-- Every command answers a next state, whatever the digest (60_exceptions.md R274). -/
theorem execWith_answers (D : Digest160) (i : Instr) (s : State) : ∃ t, execWith D i s = .next t := by
  by_cases hc : i = .checksum
  · subst hc
    exact endCommand_answers s (.ok (s.checksumBodyWith D))
  by_cases hg : i = .generate
  · subst hg
    show ∃ t, execGenerateWith D s = .next t
    unfold execGenerateWith
    split <;> exact endCommand_answers _ _
  rw [execWith_eq_exec D hc hg]
  exact exec_answers i s

/-- Everything a register write that answers a next state can have done. -/
theorem writeReg_next {r : HostReg} {v : Word} {s t : State} (h : writeReg r v s = .next t) :
    (r = .cmd ∧ runCommand v s = .next t) ∨ (r = .status ∧ t = s.writeStatus v) ∨
    (r = .argCount ∧ t = { s with argCount := v }) ∨ (r = .argVersion ∧ t = { s with argVersion := v }) ∨
    (r = .argAddons ∧ t = { s with argAddons := v }) ∨ (r = .unitSeed ∧ t = { s with unitSeed := v }) ∨
    (r = .batchSeed ∧ t = { s with batchSeed := v }) ∨
    (r = .dinLo ∧ t = { s with din := s.din.extractLsb' 32 32 ++ v }) ∨
    (r = .dinHi ∧ t = { s with din := v ++ s.din.extractLsb' 0 32 }) := by
  cases r with
  | cmd => exact .inl ⟨rfl, h⟩
  | status | argCount | argVersion | argAddons | unitSeed | batchSeed | dinLo | dinHi => cases h; simp
  | id | doutLo | doutHi | ckLo | ckHi | secretLen | config => cases h
  | digest n => cases h
  | serial n => cases h

theorem powerOn_next {p : Params} {t : State} (h : powerOn p = .next t) :
    ∃ hw : p.WellFormed, t = State.resetWith { p with wellFormed := hw } := by
  unfold powerOn at h
  split at h
  · next hw => exact ⟨hw, (Host.Outcome.next.inj h).symm⟩
  · cases h

theorem secretBytes_length (s : State) : (secretBytes s).length = s.secretLen.toNat := by simp [secretBytes]

@[simp] theorem secretBytes_setRec (s : State) (r : Record) : secretBytes (s.setRec r) = secretBytes s := rfl

@[simp] theorem secretBytes_complete (s : State) : secretBytes s.complete = secretBytes s := rfl

end Sys2Proof.Machine
end

