-- ==== Sys2Proof/Tests/Slice0.lean ====
section
/-! SUPPORT. Tests: ill-formed terms that the checks refuse, words decoded from their bits, one or two spec vectors per
command (95_test_vectors.md, under the reference instantiation RI where it says so), and for every statement with
hypotheses a state and operands that meet them. -/

namespace Sys2Proof.Tests

-- One theorem at a time: a thread for each kernel evaluation would ask for more stack than the check allows.
set_option Elab.async false

open Sys2Proof.Machine

/-- The machine after reset, under RI (00_scope.md R10). -/
def ri : State := State.resetWith Config.ri

/-- The state a command leaves. -/
def after (i : Instr) (s : State) : State :=
  match exec i s with
  | .next t => t
  | .fault _ => s
  | .refused _ => s

/-- RI with these events at the port. -/
def port (events : List HostEvent) : State := { ri with pending := events }

/-- The state a step leaves. -/
def afterStep (s : State) : State :=
  match step s with
  | .next t => t
  | .fault _ => s
  | .refused _ => s

/-- A step that the port rejects with BusError at this offset. -/
def rejects (s : State) (off : BitVec 7) : Bool :=
  match step s with
  | .next _ => false
  | .fault (.busError o) => decide (o = off)
  | .refused _ => false

/-- Characters as bytes (00_scope.md R15). -/
def chars (text : String) : List Byte := text.toList.map fun ch => BitVec.ofNat 8 ch.toNat

/-- The operands of V-PK-1 to V-PK-5. -/
def packOperands (version : Word) : State :=
  { ri with argCount := 0x1234#32, argVersion := version, argAddons := 0x515#32, unitSeed := 0x1ABCDEF#32,
            batchSeed := 0x5A5A#32 }

/-- The operands and the secret of V-GN-1. -/
def generateOperands : State :=
  { ri with secret := [(0, 0x4B#8), (1, 0x37#8)], secretLen := 2#8, argCount := 1000#32, argVersion := 8#32,
            unitSeed := 0x123456#32, batchSeed := 0x2BCD#32 }

/-! ## Ill-formed terms -/

theorem test_illFormed_get : ¬ Instr.WellFormed (.get 125#7 1#6) ∧ Instr.WellFormed (.get 124#7 1#6) := by decide
theorem test_illFormed_set : ¬ Instr.WellFormed (.set 63#7 63#6) ∧ Instr.WellFormed (.set 62#7 63#6) := by decide
theorem test_illFormed_getp : ¬ Instr.WellFormed (.getp 126#7 0#6) ∧ Instr.WellFormed (.getp 125#7 0#6) := by decide
theorem test_illFormed_setp : ¬ Instr.WellFormed (.setp 127#7 63#6) ∧ Instr.WellFormed (.setp 0#7 63#6) := by decide

theorem test_illFormed_duplicateSymbol :
    ¬ Params.WellFormed { Params.ri with alphabet := Params.ri.alphabet.set 1 0x30#8 } := by decide +kernel
theorem test_illFormed_foreignSymbol :
    ¬ Params.WellFormed { Params.ri with alphabet := Params.ri.alphabet.set 1 0x42#8 } := by decide +kernel
theorem test_illFormed_slotMap :
    ¬ Params.WellFormed { Params.ri with slotMap := Params.ri.slotMap.set 1 0 } := by decide +kernel
theorem test_illFormed_secretMaxZero : ¬ Params.WellFormed { Params.ri with secretMax := 0 } := by decide +kernel
theorem test_illFormed_secretMaxLarge : ¬ Params.WellFormed { Params.ri with secretMax := 256 } := by decide +kernel
theorem test_illFormed_refused :
    powerOn { Params.ri with secretMax := 0 } = .refused .illFormedConfiguration :=
  dif_neg test_illFormed_secretMaxZero

theorem test_illFormed_memoryUnsorted : ¬ Memory.wf [(1, 0x01#8), (0, 0x01#8)] := by decide
theorem test_illFormed_memoryZeroByte : ¬ Memory.wf [(0, 0x00#8)] := by decide

/-! ## Decoding, from the bits of 30_encoding.md R91, R93: RSV, WIDTH, START, OP -/

theorem test_decode_nop : decode 0b00000000000000000000000000000000#32 = .ok .nop := by decide
theorem test_decode_clear : decode 0b00000000000000000000000000000001#32 = .ok .clear := by decide
theorem test_decode_get : decode 0b00000000000000101000000000000010#32 = .ok (.get 0#7 40#6) := by decide
theorem test_decode_set : decode 0b00000000000000010000010110100011#32 = .ok (.set 45#7 16#6) := by decide
theorem test_decode_getp : decode 0b00000000000000000001000001100100#32 = .ok (.getp 3#7 1#6) := by decide
theorem test_decode_setp : decode 0b00000000000000000101000000000101#32 = .ok (.setp 0#7 5#6) := by decide
theorem test_decode_validate : decode 0b00000000000000000000000000000110#32 = .ok .validate := by decide
theorem test_decode_pack : decode 0b00000000000000000000000000000111#32 = .ok .pack := by decide
theorem test_decode_checksum : decode 0b00000000000000000000000000001000#32 = .ok .checksum := by decide
theorem test_decode_wrhash : decode 0b00000000000000000000000000001001#32 = .ok .wrhash := by decide
theorem test_decode_permute : decode 0b00000000000000000000000000001010#32 = .ok .permute := by decide
theorem test_decode_encode : decode 0b00000000000000000000000000001011#32 = .ok .encode := by decide
theorem test_decode_generate : decode 0b00000000000000000000000000001100#32 = .ok .generate := by decide
theorem test_decode_skclr : decode 0b00000000000000000000000000001101#32 = .ok .skclr := by decide
theorem test_decode_skpush : decode 0b00000000000000000000000000001110#32 = .ok .skpush := by decide

/-- 95_test_vectors.md 2.1, the illegal words. -/
theorem test_decode_illegal :
    ([0x0000000F#32, 0x0000001F#32, 0x00000021#32, 0x0000100C#32, 0x00040000#32, 0x80000002#32, 0x00008F0F#32].all
      fun c => decide (decode c = .error .illegalCommand)) = true := by decide

/-- 95_test_vectors.md 2.1: FIELD_RANGE is ERRCODE 5. -/
theorem test_fieldRange_words :
    ([0x00008F02#32, 0x00001FA2#32, 0x0003F7E2#32].all
      fun c => decide ((afterStep (port [cmdWrite c])).errCode = 5#4)) = true := by decide +kernel

theorem test_decodeTableWord : decodeTableWord 32 0x000105A3 = some (.set 45#7 16#6) ∧
    decodeTableWord 32 0x0000000F = none := by decide

/-- 30_encoding.md R101: `GETF Count` and `GETF Version` are the words of P2 and P4. -/
theorem test_fieldCommands : Sys2Proof.encode (getFieldCommand .count) = 0x000105A2#32 ∧
    Sys2Proof.encode (getFieldCommand .version) = 0x00005D22#32 ∧ Sys2Proof.encode (getGroupCommand 0) = 0x00005004#32 := by
  decide

/-! ## One step of each command -/

theorem test_nop : statusWord (after .nop { ri with sticky := true, err := true, errCode := 3#4 }) = 0x05#32 := by decide +kernel
/-- V-RA-7. -/
theorem test_clear : (after .clear { ri with recReg := BitVec.allOnes 125 }).recReg = 0#125 := by decide +kernel
/-- V-RA-6. -/
theorem test_get : (after (.get 62#7 63#6) { ri with recReg := BitVec.allOnes 125 }).dout = 0x7FFFFFFFFFFFFFFF#64 := by
  decide +kernel
/-- V-RA-5. -/
theorem test_get_range : (after (.get 120#7 8#6) { ri with dout := 0x1234#64 }).dout = 0x1234#64 ∧
    statusWord (after (.get 120#7 8#6) ri) = 0x56#32 := by decide +kernel
/-- V-RA-1. -/
theorem test_set : (after (.set 45#7 16#6) { ri with din := 0xFFFF#64 }).recReg = 0xFFFF#125 <<< 45 := by decide +kernel
/-- V-RA-3. -/
theorem test_set_one : (after (.set 2#7 1#6) { ri with recReg := 0x1F#125 }).recReg = 0x1B#125 := by decide +kernel
/-- V-RA-9. -/
theorem test_setp : (after (.setp 0#7 5#6) { ri with din := 31#64 }).precReg = 31#125 := by decide +kernel
/-- V-RA-10's record, in PREC. -/
theorem test_getp : (after (.getp 120#7 5#6) { ri with precReg := 0x2BCD#125 <<< 110 }).dout = 0x0A#64 := by decide +kernel
/-- V-VA-4, V-VA-6, V-VA-9, V-VA-10. -/
theorem test_validate :
    statusWord (after .validate { ri with argCount := 0xFFFFFFFF#32 }) = 0x36#32 ∧
    statusWord (after .validate { ri with argVersion := 0xFFFFFFFF#32 }) = 0x26#32 ∧
    statusWord (after .validate { ri with argCount := 70000#32, argVersion := 40#32, argAddons := 0x41F#32 }) = 0x16#32 ∧
    statusWord (after .validate { ri with argCount := 70000#32, argVersion := 40#32 }) = 0x26#32 := by decide +kernel
/-- V-VA-2, V-VA-11. -/
theorem test_validate_ok :
    statusWord (after .validate { ri with argCount := 65535#32, argVersion := 31#32 }) = 0x01#32 ∧
    statusWord (after .validate { ri with argAddons := 0xFFFFE51F#32 }) = 0x01#32 := by decide +kernel
/-- V-PK-1. -/
theorem test_pack_v5 : (after .pack (packOperands 5#32)).recReg = 0x16968BABCDEF00000000000000000000#125 := by decide +kernel
/-- V-PK-2, V-PK-4. -/
theorem test_pack_gates : (after .pack (packOperands 6#32)).recReg = 0x16968DABCDEF00000246800000000000#125 ∧
    (after .pack (packOperands 8#32)).recReg = 0x169691ABCDEF00000246950000000000#125 := by decide +kernel
/-- V-CK-1: CK. -/
theorem test_checksum :
    (after .checksum { generateOperands with recReg := 0x0AF3501234560000007D1F0000000000#125 }).ck = 0xCB9783BB25#40 := by
  decide +kernel
/-- V-CK-4: DG, on an empty record and an empty secret. -/
theorem test_checksum_empty : (after .checksum ri).dg.toList =
    [0x42#8, 0x7e#8, 0xad#8, 0xa5#8, 0x38#8, 0x6c#8, 0x43#8, 0x0a#8, 0x75#8, 0x59#8, 0x7d#8, 0xea#8, 0xb0#8, 0xf2#8,
     0xf8#8, 0xe7#8, 0x6b#8, 0x17#8, 0xa5#8, 0xc8#8] := by decide +kernel
/-- A digest given as an argument: the message's length as byte 0. Of an empty record and secret the message has 43 bytes
(V-CK-4), and by 42_checksum.md R187 byte 0 is lane 0 of CK. -/
theorem test_checksum_given :
    (match execWith (fun m => (Vector.replicate 20 0x00#8).set 0 (BitVec.ofNat 8 m.length)) .checksum ri with
      | .next t => t.ck
      | _ => 0#40) = 43#40 := by decide +kernel
/-- V-FD-1, V-FD-5. -/
theorem test_fold : fold (Vector.ofFn fun j => BitVec.ofNat 8 j.val) = 0x1014181C00#40 ∧
    fold ((Vector.replicate 20 0x00#8).set 19 0x01#8) = 0x0100000000#40 := by decide +kernel
/-- V-WH-1. -/
theorem test_wrhash : (after .wrhash { ri with ck := 0xCB9783BB25#40 }).recReg = 0xCB9783BB25#125 := by decide +kernel
/-- V-PM-4. -/
theorem test_permute_hash :
    (after .permute { ri with recReg := 0xFFFFFFFFFF#125 }).precReg = 0x149249A4924D249269249349249#125 := by decide +kernel
/-- V-PM-6. -/
theorem test_permute_unitId :
    (after .permute { ri with recReg := 0x1FFFFFF#125 <<< 80 }).precReg = 0x45140228A01145008A2804514#125 := by decide +kernel
/-- V-EN-3. -/
theorem test_encode : (after .encode { ri with precReg := 0x18BDAB49CA307B9AC5A928398A418820#125 }).serial.toList =
    chars "01234-56789-ACDEF-GHJKL-MNPQR" := by decide +kernel
/-- V-GN-1. -/
theorem test_generate : (after .generate generateOperands).serial.toList = chars "LGU1P-9XFP1-50DK2-1R680-M8EYA" ∧
    (after .generate generateOperands).precReg = 0x0AF3514020D808A4C01436775360E9F3#125 := by decide +kernel
/-- P4: GENERATE on version 32 after a good serial. -/
theorem test_generate_error :
    statusWord (after .generate { generateOperands with argVersion := 32#32, serialValid := true }) = 0x26#32 := by
  decide +kernel
/-- 42_checksum.md R180: the bytes keep their values. -/
theorem test_skclr : (after .skclr generateOperands).secretLen = 0#8 ∧
    (after .skclr generateOperands).secret = [(0, 0x4B#8), (1, 0x37#8)] := by decide +kernel
/-- P1: the second byte of the secret. -/
theorem test_skpush : (after .skpush { ri with secret := [(0, 0x4B#8)], secretLen := 1#8, din := 0x37#64 }).secret =
    [(0, 0x4B#8), (1, 0x37#8)] := by decide +kernel
/-- V-SK-1. -/
theorem test_skpush_full : statusWord (after .skpush { ri with secretLen := 64#8 }) = 0x66#32 := by decide +kernel

/-! ## The host window and reset -/

/-- V-BUS-1, V-BUS-9, V-RST-1, V-RST-2. -/
theorem test_reads : (afterStep (port [.read 0x00#7 4])).reply = some 0x56570007#32 ∧
    (afterStep (port [.read 0x3C#7 4])).reply = some 0x00000040#32 ∧
    (afterStep (port [.read 0x14#7 4])).reply = some 0x0000051F#32 ∧
    (afterStep (port [.read 0x08#7 4])).reply = some 0x00000000#32 := by decide +kernel
/-- V-BUS-2 to V-BUS-5, V-BUS-10. -/
theorem test_busErrors : rejects (port [.read 0x06#7 4]) 0x06#7 ∧ rejects (port [.read 0x08#7 2]) 0x08#7 ∧
    rejects (port [.read 0x54#7 4]) 0x54#7 ∧ rejects (port [.write 0x28#7 4 0#32]) 0x28#7 ∧
    rejects (port [.write 0x04#7 1 0#32]) 0x04#7 := by decide +kernel
/-- V-BUS-6, V-BUS-7. -/
theorem test_statusWrite :
    statusWord (afterStep { port [.write 0x08#7 4 0x4#32] with err := true, sticky := true, errCode := 3#4 }) = 0x32#32 ∧
    statusWord (afterStep { port [.write 0x08#7 4 0xFFFFFFFB#32] with err := true, sticky := true, errCode := 3#4 }) =
      0x36#32 := by decide +kernel
/-- V-BUS-8. -/
theorem test_lastCmd : (afterStep (port [cmdWrite 0x0000000F#32])).lastCmd = 0x0000000F#32 := by decide +kernel
/-- P1: SERIAL0, and SERIAL7 with its upper bytes 0. -/
theorem test_serialWords :
    readReg (.serial 0) { ri with serial := Vector.ofFn fun q => (chars "LGU1P-9XFP1-50DK2-1R680-M8EYA").getD q.val 0#8 } =
      0x3155474C#32 ∧
    readReg (.serial 7) { ri with serial := Vector.ofFn fun q => (chars "LGU1P-9XFP1-50DK2-1R680-M8EYA").getD q.val 0#8 } =
      0x00000041#32 := by decide +kernel
/-- P1: DIGEST0 and DIGEST4 of a digest that starts e8 2a fb 82 and ends ad 91 cb cb. -/
theorem test_digestWords :
    readReg (.digest 0) { ri with dg := ((((Vector.replicate 20 0x00#8).set 0 0xE8#8).set 1 0x2A#8).set 2 0xFB#8).set 3 0x82#8 } =
      0x82FB2AE8#32 := by decide +kernel
theorem test_reset_event : afterStep { port [.reset] with argCount := 7#32, sticky := true } = ri := by decide +kernel
theorem test_withFetchWord : (afterStep (State.reset.withFetchWord 32 0x00000006)).ok = true := by decide
/-- 42_checksum.md R183's default on the message "abc", the digest of V-FD-6. -/
theorem test_sha1 : (sha1 (chars "abc")).toList =
    [0xa9#8, 0x99#8, 0x3e#8, 0x36#8, 0x47#8, 0x06#8, 0x81#8, 0x6a#8, 0xba#8, 0x3e#8, 0x25#8, 0x71#8, 0x78#8, 0x50#8,
     0xc2#8, 0x6c#8, 0x9c#8, 0xd0#8, 0xd8#8, 0x9d#8] := by decide +kernel

/-! ## Witnesses: for each statement with hypotheses, values that meet them -/

/-- StepRunsDecodedCommand: a word that decodes, and one that does not. -/
theorem witness_StepRunsDecodedCommand :
    ((port [.write 0x04#7 4 0x00028002#32]).pending = .write 0x04#7 4 0x00028002#32 :: [] ∧
      decode 0x00028002#32 = .ok (.get 0#7 40#6)) ∧
    (port [.write 0x04#7 4 0x0000000F#32]).pending = .write 0x04#7 4 0x0000000F#32 :: [] ∧
      decode 0x0000000F#32 = .error .illegalCommand := by decide

/-- EncodeInvertsDecode, at the largest legal span. -/
theorem witness_EncodeInvertsDecode : decode 0x0003F7C2#32 = .ok (.get 62#7 63#6) := by decide

/-- DecodeChecksInOrder: each of the five clauses at its boundary. -/
theorem witness_DecodeChecksInOrder :
    (0x00040000#32).toNat / 2 ^ 18 = 1 ∧
    ((0x0000000F#32).toNat / 2 ^ 18 = 0 ∧ (0x0000000F#32).toNat % 32 = 0x0F) ∧
    ((0x0000002E#32).toNat / 2 ^ 18 = 0 ∧ (0x0000002E#32).toNat % 32 = 0x0E ∧ (0x0000002E#32).toNat / 2 ^ 5 % 128 = 1) ∧
    ((0x00001FA2#32).toNat / 2 ^ 18 = 0 ∧ (0x00001FA2#32).toNat % 32 = 2 ∧
      (0x00001FA2#32).toNat / 2 ^ 5 % 128 + (0x00001FA2#32).toNat / 2 ^ 12 % 64 = 126) ∧
    ((0x00001F82#32).toNat / 2 ^ 18 = 0 ∧ (0x00001F82#32).toNat % 32 = 2 ∧
      (0x00001F82#32).toNat / 2 ^ 5 % 128 + (0x00001F82#32).toNat / 2 ^ 12 % 64 = 125) := by decide

theorem decode_reserved : decode 0x0000000F#32 = .error .illegalCommand := by decide

theorem witness_LegalWordsCounted : ¬ LegalWord 0x0000000F#32 ∧ LegalWord 0x0000000E#32 ∧ (31 : Nat) < 32 := by
  refine ⟨?_, ⟨.skpush, by decide, by decide⟩, by decide⟩
  rintro ⟨i, h, -⟩
  rw [decode_reserved] at h
  cases h

theorem witness_AssemblerRefusesBadOperands : (62 + 63 ≤ 125 ∧ 63 ≤ 63) ∧ ¬ (63 + 63 ≤ 125 ∧ 63 ≤ 63) ∧
    ¬ (0 + 64 ≤ 125 ∧ 64 ≤ 63) ∧ ([] : List Nat).length ≠ 2 ∧ [0].length ≠ 2 ∧ [0, 1, 2].length ≠ 2 ∧
    ([0, 0] : List Nat) ≠ [] ∧ assemble "SKPUSH" [] = some .skpush ∧
    assemble "GET" [62, 63] = some (.get 62#7 63#6) := by decide

/-- FieldPrimitives, at a span that ends at cell 124: its first and last cell, and the cells beside it. -/
theorem witness_FieldPrimitives : 62 + 63 ≤ 125 ∧ (0 < 63 ∧ 62 < 63) ∧ (61 < 62 ∨ 62 + 63 ≤ 61) ∧
    (125 < 62 ∨ 62 + 63 ≤ 125) := by decide

/-- NoOtherWord, for each command without operands: the word with START = 1. -/
theorem witness_NoOtherWord : ∀ op ∈ [0x00, 0x01, 0x06, 0x07, 0x08, 0x09, 0x0A, 0x0B, 0x0C, 0x0D, 0x0E],
    (BitVec.ofNat 32 (op + 32)).toNat % 32 = op ∧ (BitVec.ofNat 32 (op + 32)).toNat ≠ op := by decide

/-- FieldWordErrors, for each field command: RSV = 1, and the span 125 .. 125. -/
theorem witness_FieldWordErrors : ∀ op ∈ [0x02, 0x03, 0x04, 0x05],
    ((BitVec.ofNat 32 (op + 2 ^ 18)).toNat % 32 = op ∧ 2 ^ 18 ≤ (BitVec.ofNat 32 (op + 2 ^ 18)).toNat) ∧
    ((BitVec.ofNat 32 (op + 0x1FA0)).toNat % 32 = op ∧ (BitVec.ofNat 32 (op + 0x1FA0)).toNat < 2 ^ 18 ∧
      125 < (BitVec.ofNat 32 (op + 0x1FA0)).toNat / 32 % 128 + (BitVec.ofNat 32 (op + 0x1FA0)).toNat / 4096) := by decide

/-- GetReadsRecordField, SetWritesRecordField, GetpReadsPermutedField, SetpWritesPermutedField, SetThenGetReadsBack: a
span that just fits, one that is empty at the end, and one that just does not fit. -/
theorem witness_fieldSpans : (62#7).toNat + (63#6).toNat ≤ 125 ∧ (125#7).toNat + (0#6).toNat ≤ 125 ∧
    125 < (125#7).toNat + (1#6).toNat ∧ 62 < (63#6).toNat ∧ (61 < (62#7).toNat ∨ (62#7).toNat + (63#6).toNat ≤ 61) := by
  decide

/-- ValidateChecksInOrder, PackWritesGatedFields, GenerateBuildsSerial, GenerateIsPipeline: valid operands at both ends
of the ranges. -/
theorem witness_ArgsValid : ArgsValid ri ∧ ArgsValid { ri with argVersion := 31#32, argCount := 65535#32 } := by
  decide +kernel

/-- The same statements' failing operands: one below and one above each range. -/
theorem witness_ArgsFail : ArgsFail { ri with argAddons := 0x41F#32 } 1#4 ∧ ArgsFail { ri with argAddons := 0x61F#32 } 1#4 ∧
    ArgsFail { ri with argVersion := 32#32 } 2#4 ∧ ArgsFail { ri with argVersion := 0xFFFFFFFF#32 } 2#4 ∧
    ArgsFail { ri with argCount := 65536#32 } 3#4 ∧ ArgsFail { ri with argCount := 0xFFFFFFFF#32 } 3#4 :=
  ⟨.inl (by decide +kernel), .inl (by decide +kernel), .inr (.inl (by decide +kernel)), .inr (.inl (by decide +kernel)),
    .inr (.inr (by decide +kernel)), .inr (.inr (by decide +kernel))⟩

/-- SkpushAppendsByte, SkpushExtendsSecret: the last free index, the empty store, and the full store. -/
theorem witness_Skpush : (State.secretLen { ri with secretLen := 63#8 }).toNat < ri.cfg.secretMax ∧
    ri.secretLen.toNat < ri.cfg.secretMax ∧ (State.secretLen { ri with secretLen := 64#8 }).toNat = ri.cfg.secretMax ∧
    (1 : Nat) ≠ ri.secretLen.toNat := by decide +kernel

/-- ChecksumReadsOnlyWindowAndSecret: two states that differ in the Hash field, in a stale secret byte and in DIN. -/
theorem witness_ChecksumReadsOnlyWindowAndSecret :
    generateOperands.cfg = State.cfg { generateOperands with recReg := 0xFFFFFFFFFF#125, secret := [(0, 0x4B#8), (1, 0x37#8), (2, 0x38#8)], din := 9#64 } ∧
    (∀ k, 40 ≤ k → generateOperands.recReg.getLsbD k = (0xFFFFFFFFFF#125).getLsbD k) ∧
    secretBytes generateOperands = secretBytes { generateOperands with recReg := 0xFFFFFFFFFF#125, secret := [(0, 0x4B#8), (1, 0x37#8), (2, 0x38#8)], din := 9#64 } := by
  refine ⟨rfl, fun k hk => ?_, by decide +kernel⟩
  show (0#125).getLsbD k = (0xFFFFFFFFFF#125).getLsbD k
  rw [BitVec.getLsbD_zero, BitVec.getLsbD_ofNat, Nat.testBit_lt_two_pow, Bool.and_false]
  exact Nat.lt_of_lt_of_le (by decide : 0xFFFFFFFFFF < 2 ^ 40) (Nat.pow_le_pow_right (by decide) hk)

/-- PermuteFollowsSourceTable, PermuteFollowsDestinationTable: the last cell of the table and the last cell. -/
theorem witness_permuteCells : 104 < 125 ∧ 124 < 125 := by decide

/-- EncodeIsInjective: two states of one configuration, with unlike records. -/
theorem witness_EncodeIsInjective : ri.cfg = State.cfg { ri with precReg := 1#125 } ∧
    ri.precReg ≠ State.precReg { ri with precReg := 1#125 } := ⟨rfl, by decide +kernel⟩

/-- EncodesRecord's clauses: a dash, and the group at slot 24, position 28. -/
theorem witness_EncodesRecord : (5 : Nat) ∈ [5, 11, 17, 23] ∧
    (31 : Fin 32).val = (BitVec.allOnes 125).toNat / 2 ^ (5 * (24 : Fin 25).val) % 32 ∧
    (28 : Fin 29).val = ri.cfg.slotMap[(24 : Fin 25)].val + ri.cfg.slotMap[(24 : Fin 25)].val / 5 := by decide +kernel

/-- DigestIsArgument: operands that pass and fail the check, a command that reads no digest, and a command word at the
port. -/
theorem witness_DigestIsArgument : ArgsValid generateOperands ∧ NaddOk { generateOperands with argVersion := 32#32 } ∧
    ¬ VersionOk { generateOperands with argVersion := 32#32 } ∧ Instr.wrhash ≠ .checksum ∧ Instr.wrhash ≠ .generate ∧
    (port [.write 0x04#7 4 0x00000008#32]).pending = .write 0x04#7 4 0x00000008#32 :: [] ∧
    decode 0x00000008#32 = .ok .checksum := by decide +kernel

theorem witness_IllFormedConfigurationRefused :
    ¬ Params.WellFormed { Params.ri with secretMax := 256 } ∧ Params.WellFormed { Params.ri with secretMax := 255 } := by
  decide +kernel

/-- SerialIsFunctionOfOperands, below both gates: the counts, the flags and the seeds' unused bits differ. -/
theorem witness_SerialIsFunctionOfOperands_ungated :
    ArgsValid { ri with argVersion := 5#32, argCount := 1#32, argAddons := 0x51F#32, unitSeed := 0#32 } ∧
    ArgsValid { ri with argVersion := 5#32, argCount := 2#32, argAddons := 0x500#32, unitSeed := 0x80000000#32 } ∧
    ¬ (6 ≤ (5#32).toInt) ∧ ¬ (8 ≤ (5#32).toInt) ∧ (0#32).extractLsb' 0 25 = (0x80000000#32).extractLsb' 0 25 := by
  decide +kernel

/-- SerialIsFunctionOfOperands and SerialDeterminesOperands, above both gates: DIN and the reserved bits of ARG_ADDONS
differ. -/
theorem witness_SerialIsFunctionOfOperands_gated :
    ArgsValid generateOperands ∧ ArgsValid { generateOperands with argAddons := 0xFFFFE51F#32, din := 9#64 } ∧
    secretBytes generateOperands = secretBytes { generateOperands with argAddons := 0xFFFFE51F#32, din := 9#64 } ∧
    6 ≤ generateOperands.argVersion.toInt ∧ 8 ≤ generateOperands.argVersion.toInt ∧
    flagsOf generateOperands = flagsOf { generateOperands with argAddons := 0xFFFFE51F#32, din := 9#64 } := by decide +kernel

/-- SerialDeterminesOperands: two states with equal serials after GENERATE. -/
theorem witness_SerialDeterminesOperands : (after .generate generateOperands).serial =
    (after .generate { generateOperands with argAddons := 0xFFFFE51F#32, din := 9#64 }).serial := by decide +kernel

/-- ErrorsArePrecise: an illegal word, and a failing GENERATE. -/
theorem witness_ErrorsArePrecise : (∃ t, runCommand 0x0000000F#32 ri = .next t ∧ t.err = true) ∧
    ∃ t, runCommand 0x0000000C#32 { ri with argVersion := 32#32 } = .next t ∧ t.err = true :=
  ⟨⟨_, rfl, rfl⟩, ⟨_, rfl, rfl⟩⟩

/-- CompletionsWriteStatus: a command that completes, and one that sets SERIAL_VALID. -/
theorem witness_CompletionsWriteStatus : (∃ t, runCommand 0x00000006#32 ri = .next t ∧ t.err = false) ∧
    ∃ t, runCommand 0x0000000B#32 ri = .next t ∧ t.err = false :=
  ⟨⟨_, rfl, rfl⟩, ⟨_, rfl, rfl⟩⟩

theorem witness_NoCommandIsFatal :
    (port [.write 0x04#7 4 0x80000002#32, .reset]).pending = .write 0x04#7 4 0x80000002#32 :: [.reset] := rfl

theorem witness_CommandsWriteOnlyTheirRegisters : ∃ t, exec .skpush ri = .next t := ⟨_, rfl⟩

/-- BusErrorExactlyOnBadAccess: each bad access and its good neighbour. -/
theorem witness_BusErrorExactlyOnBadAccess :
    (port [.read 0x53#7 4]).pending = [.read 0x53#7 4] ∧ (0x53#7).toNat % 4 ≠ 0 ∧ (2 : Nat) ≠ 4 ∧
    (0x54#7).toNat ∈ unmappedOffsets ∧ (0x5C#7).toNat ∈ unmappedOffsets ∧
    ¬ ((4 : Nat) ≠ 4 ∨ (0x50#7).toNat % 4 ≠ 0 ∨ (0x50#7).toNat ∈ unmappedOffsets) ∧
    ¬ ((4 : Nat) ≠ 4 ∨ (0x60#7).toNat % 4 ≠ 0 ∨ (0x60#7).toNat ∈ unmappedOffsets) ∧
    (port [.write 0x28#7 4 0#32]).pending = [.write 0x28#7 4 0#32] ∧ (0x28#7).toNat ∈ readOnlyOffsets ∧
    ¬ (((4 : Nat) ≠ 4 ∨ (0x24#7).toNat % 4 ≠ 0 ∨ (0x24#7).toNat ∈ unmappedOffsets) ∨ (0x24#7).toNat ∈ readOnlyOffsets) := by
  decide

/-- HostReadsRegisters, LastCmdHoldsLastWord, SecretIsUnreadable: a read at the port, with an access after it. -/
theorem witness_reads : (port [.read 0x3C#7 4, .reset]).pending = .read 0x3C#7 4 :: [.reset] := rfl

/-- DigestWordsPackDigest: the first and the last byte. -/
theorem witness_DigestWordsPackDigest :
    (port [.read 0x50#7 4]).pending = .read (BitVec.ofNat 7 (0x40 + 4 * (4 : Fin 5).val)) 4 :: [] ∧
    (0 : Fin 20).val = 4 * (0 : Fin 5).val + (0 : Fin 4).val ∧
    (19 : Fin 20).val = 4 * (4 : Fin 5).val + (3 : Fin 4).val := by decide

/-- SerialWordsPackSerial: the last byte of SERIAL and the first byte beyond it, in the last word. -/
theorem witness_SerialWordsPackSerial :
    (port [.read 0x7C#7 4]).pending = .read (BitVec.ofNat 7 (0x60 + 4 * (7 : Fin 8).val)) 4 :: [] ∧
    (28 : Fin 29).val = 4 * (7 : Fin 8).val + (0 : Fin 4).val ∧ 28 < 4 * (7 : Fin 8).val + (1 : Fin 4).val := by decide

/-- HostWritesOperands, StatusWriteClearsSticky: a write at the port. -/
theorem witness_writes : (port [.write 0x24#7 4 0xFFFFFFFF#32]).pending = .write 0x24#7 4 0xFFFFFFFF#32 :: [] ∧
    (port [.write 0x08#7 4 0x4#32]).pending = .write 0x08#7 4 0x4#32 :: [] := by decide

/-- LastCmdHoldsLastWord: a command word at the port, and another event. -/
theorem witness_LastCmdHoldsLastWord :
    (∃ t, step (port [.write 0x04#7 4 0x00000006#32]) = .next t) ∧ (∃ t, step (port [.write 0x08#7 4 0x4#32]) = .next t) ∧
    HostEvent.write 0x08#7 4 0x4#32 ≠ .reset ∧ ∀ c, HostEvent.write 0x08#7 4 0x4#32 ≠ .write 0x04#7 4 c := by
  refine ⟨⟨_, rfl⟩, ⟨_, rfl⟩, by decide, fun c h => ?_⟩
  injection h with h
  exact absurd h (by decide)

/-- A configuration of RI at bus address 256. -/
def placed : Config := { Params.ri with base := 256, wellFormed := by decide +kernel }

/-- WindowIsAtBase: the addresses just below and just above the window. -/
theorem witness_WindowIsAtBase : (255 < placed.base ∨ placed.base + 128 ≤ 255) ∧
    (384 < placed.base ∨ placed.base + 128 ≤ 384) := by decide +kernel

/-- StaleSecretBytesAreInvisible: a byte at index SECRET_LEN differs, and a step runs. -/
theorem witness_StaleSecretBytesAreInvisible :
    (∀ a, a < 2 → Memory.read [(0, 0x4B#8), (1, 0x37#8), (2, 0x38#8)] a = Memory.read generateOperands.secret a) ∧
    Memory.read [(0, 0x4B#8), (1, 0x37#8), (2, 0x38#8)] 2 ≠ Memory.read generateOperands.secret 2 ∧
    generateOperands.secretLen.toNat = 2 ∧
    ∃ t, step { generateOperands with pending := [cmdWrite 0x0000000E#32] } = .next t :=
  ⟨by decide +kernel, by decide +kernel, rfl, _, rfl⟩

theorem witness_ResetRestoresRegisters : (port [.reset, .read 0x00#7 4]).pending = .reset :: [.read 0x00#7 4] := rfl

/-- EveryStepKeepsInvariant, ConfigurationNeverChanges: a state with a secret, and a step from it. -/
theorem witness_EveryStepKeepsInvariant : Inv { generateOperands with pending := [cmdWrite 0x0000000E#32] } ∧
    ∃ t, step { generateOperands with pending := [cmdWrite 0x0000000E#32] } = .next t := by
  refine ⟨⟨by decide +kernel, by decide +kernel, by decide +kernel, by decide +kernel, by decide +kernel,
    by decide +kernel, fun _ => rfl, ?_, ?_, fun _ => rfl⟩, _, rfl⟩
  · intro h; exact absurd h (by decide +kernel)
  · intro h; exact absurd h (by decide +kernel)

end Sys2Proof.Tests
end

section
/-! PROOFS. The state as the host reaches it (10_state.md R37 to R39; 20_memory.md R63, R70): what a read and a write at
the port do, each word a read answers as a number, and which steps write LASTCMD. -/

namespace Sys2Proof.Machine

/-! ## An access at the port -/

theorem State.accept_of_pending {s : State} {e : HostEvent} {rest : List HostEvent} (h : s.pending = e :: rest) :
    s.accept = { s with pending := rest, reply := none } := by
  simp only [State.accept, h, List.tail_cons]

/-- A register's value does not depend on the port. -/
theorem readReg_accept (r : HostReg) (s : State) : readReg r s.accept = readReg r s := rfl

theorem step_read {s : State} {r : HostReg} {rest : List HostEvent} (h : s.pending = .read (offsetOf r) 4 :: rest) :
    step s = .next { s with pending := rest, reply := some (readReg r s) } := by
  have legal : accessReg (offsetOf r) 4 = some r := accessReg_eq_some.mpr ⟨rfl, rfl⟩
  have answered : step s = .next (s.accept.setReply (readReg r s.accept)) := by
    simp only [step_event h, perform, performBy, legal]
  rw [answered, readReg_accept, State.accept_of_pending h, State.setReply]

theorem step_write {s : State} {r : HostReg} {v : Word} {rest : List HostEvent}
    (h : s.pending = .write (offsetOf r) 4 v :: rest) : step s = writeReg r v s.accept := by
  have legal : accessReg (offsetOf r) 4 = some r := accessReg_eq_some.mpr ⟨rfl, rfl⟩
  simp only [step_event h, perform, performBy, legal, writeReg]

/-- A read of a register's offset answers what `readReg` computes, written as any equal word. -/
theorem readsAs_offsetOf {r : HostReg} {value : State → Word} (h : ∀ s, readReg r s = value s) :
    ReadsAs (offsetOf r) value := by
  intro s rest hp
  rw [step_read hp, h]

/-! ## The words a read answers, as numbers -/

theorem toNat_append_eq_add {n m : Nat} (x : BitVec n) (y : BitVec m) :
    (x ++ y).toNat = x.toNat * 2 ^ m + y.toNat := by
  rw [BitVec.toNat_append, ← Nat.shiftLeft_add_eq_or_of_lt y.isLt, Nat.shiftLeft_eq]

theorem extractLsb'_eq_ofNat_div {n : Nat} (x : BitVec n) (start len : Nat) :
    x.extractLsb' start len = BitVec.ofNat len (x.toNat / 2 ^ start) := by
  rw [← Nat.shiftRight_eq_div_pow]
  rfl

theorem extractLsb'_zero_eq_ofNat {n : Nat} (x : BitVec n) (len : Nat) :
    x.extractLsb' 0 len = BitVec.ofNat len x.toNat := by
  rw [extractLsb'_eq_ofNat_div, Nat.pow_zero, Nat.div_one]

theorem eq_ofNat_of_toNat_eq {n k : Nat} {x : BitVec n} (h : x.toNat = k) : x = BitVec.ofNat n k := by
  rw [← h, BitVec.ofNat_toNat, BitVec.setWidth_eq]

/-- STATUS as the sum of its fields at their places (10_state.md R36). -/
theorem toNat_statusWord (s : State) :
    (statusWord s).toNat =
      s.ok.toNat + 2 * s.err.toNat + 4 * s.sticky.toNat + 8 * s.serialValid.toNat + 16 * s.errCode.toNat := by
  show BitVec.toNat (0#24 ++ s.errCode ++ BitVec.ofBool s.serialValid ++ BitVec.ofBool s.sticky ++
    BitVec.ofBool s.err ++ BitVec.ofBool s.ok : BitVec (24 + 4 + 1 + 1 + 1 + 1)) = _
  simp only [toNat_append_eq_add, BitVec.toNat_ofBool, BitVec.toNat_ofNat]
  omega

/-- CONFIG as the sum of its fields at their places (10_state.md R39): SECRET_MAX fits its byte in every well-formed
configuration. -/
theorem toNat_configWord (cfg : Config) : (configWord cfg).toNat = cfg.secretMax + 256 * cfg.ckPad.toNat := by
  obtain ⟨-, -, -, -, -, fits⟩ := cfg.wellFormed
  show BitVec.toNat (0#21 ++ cfg.ckPad ++ BitVec.ofNat 8 cfg.secretMax : BitVec (21 + 3 + 8)) = _
  simp only [toNat_append_eq_add, BitVec.toNat_ofNat]
  omega

/-- CK_HI holds the 8 bits of CK that CK_LO leaves (10_state.md R25). -/
theorem readReg_ckHi (s : State) : readReg .ckHi s = BitVec.ofNat 32 (s.ck.toNat / 2 ^ 32) := by
  have small : s.ck.toNat / 2 ^ 32 < 2 ^ 8 := by have := s.ck.isLt; omega
  show (s.ck.extractLsb' 32 8).setWidth 32 = _
  rw [← BitVec.ofNat_toNat, extractLsb'_eq_ofNat_div, BitVec.toNat_ofNat, Nat.mod_eq_of_lt small]

/-- Settles O43: at each offset the register's `readReg`, as a number where it is a part of a wider value. -/
theorem hostReadsRegisters : Obligations.HostReadsRegisters :=
  ⟨readsAs_offsetOf (r := .id) fun _ => rfl,
    readsAs_offsetOf (r := .cmd) fun _ => rfl,
    readsAs_offsetOf (r := .status) fun s => eq_ofNat_of_toNat_eq (toNat_statusWord s),
    readsAs_offsetOf (r := .argCount) fun _ => rfl,
    readsAs_offsetOf (r := .argVersion) fun _ => rfl,
    readsAs_offsetOf (r := .argAddons) fun _ => rfl,
    readsAs_offsetOf (r := .unitSeed) fun _ => rfl,
    readsAs_offsetOf (r := .batchSeed) fun _ => rfl,
    readsAs_offsetOf (r := .dinLo) fun s => extractLsb'_zero_eq_ofNat s.din 32,
    readsAs_offsetOf (r := .dinHi) fun s => extractLsb'_eq_ofNat_div s.din 32 32,
    readsAs_offsetOf (r := .doutLo) fun s => extractLsb'_zero_eq_ofNat s.dout 32,
    readsAs_offsetOf (r := .doutHi) fun s => extractLsb'_eq_ofNat_div s.dout 32 32,
    readsAs_offsetOf (r := .ckLo) fun s => extractLsb'_zero_eq_ofNat s.ck 32,
    readsAs_offsetOf (r := .ckHi) readReg_ckHi,
    readsAs_offsetOf (r := .secretLen) fun s => (BitVec.ofNat_toNat 32 s.secretLen).symm,
    readsAs_offsetOf (r := .config) fun s => eq_ofNat_of_toNat_eq (toNat_configWord s.cfg)⟩

/-! ## LASTCMD -/

@[simp] theorem State.clearSerial_lastCmd (s : State) : s.clearSerial.lastCmd = s.lastCmd := rfl

/-- No command writes LASTCMD, whether it completes or reports an error. -/
theorem exec_lastCmd {i : Instr} {s t : State} (h : exec i s = .next t) : t.lastCmd = s.lastCmd := by
  obtain ⟨u, rfl, wrote⟩ | ⟨e, rfl | ⟨-, rfl⟩⟩ := exec_next h
  · obtain ⟨hlast, -, -⟩ := wrote.port
    exact hlast
  · rfl
  · rfl

/-- A word written to CMD is in LASTCMD afterwards, whether it decodes or not. -/
theorem runCommand_lastCmd {c : Word} {s t : State} (h : runCommand c s = .next t) : t.lastCmd = c := by
  obtain ⟨i, -, hrun⟩ | ⟨e, -, hrun⟩ := runCommand_cases c s
  · rw [hrun] at h
    exact exec_lastCmd h
  · rw [hrun] at h
    obtain rfl := Host.Outcome.next.inj h
    rfl

theorem writeReg_lastCmd {r : HostReg} {v : Word} {s t : State} (hr : r ≠ .cmd) (h : writeReg r v s = .next t) :
    t.lastCmd = s.lastCmd := by
  obtain ⟨rfl, -⟩ | ⟨-, rfl⟩ | ⟨-, rfl⟩ | ⟨-, rfl⟩ | ⟨-, rfl⟩ | ⟨-, rfl⟩ | ⟨-, rfl⟩ | ⟨-, rfl⟩ | ⟨-, rfl⟩ :=
    writeReg_next h
  · exact absurd rfl hr
  all_goals rfl

theorem step_cmdWrite_lastCmd {s t : State} {c : Word} {rest : List HostEvent} (hp : s.pending = cmdWrite c :: rest)
    (h : step s = .next t) : t.lastCmd = c :=
  runCommand_lastCmd ((step_command hp).symm.trans h)

/-- Of all events at the port, only a reset and a write to CMD change LASTCMD. -/
theorem step_lastCmd_of_ne {s t : State} {e : HostEvent} {rest : List HostEvent} (hp : s.pending = e :: rest)
    (hreset : e ≠ .reset) (hcmd : ∀ c, e ≠ cmdWrite c) (h : step s = .next t) : t.lastCmd = s.lastCmd := by
  obtain ⟨hidle, -⟩ | ⟨r, _, -, rfl⟩ | ⟨r, v, _, hwrite, hreg⟩ | ⟨_, hres, -⟩ := step_next h
  · rw [hp] at hidle
    cases hidle
  · rfl
  · obtain ⟨rfl, -⟩ := List.cons.inj (hp.symm.trans hwrite)
    have hr : r ≠ .cmd := by
      rintro rfl
      exact hcmd v rfl
    exact (writeReg_lastCmd hr hreg).trans s.accept_lastCmd
  · exact absurd (List.cons.inj (hp.symm.trans hres)).1 hreset

/-- Settles O48: a CMD write puts its word in LASTCMD, no other access does, and CMD reads it. -/
theorem lastCmdHoldsLastWord : Obligations.LastCmdHoldsLastWord :=
  ⟨fun _ _ _ _ hp h => step_cmdWrite_lastCmd hp h,
    fun _ _ _ _ hp hreset hcmd h => step_lastCmd_of_ne hp hreset hcmd h,
    readsAs_offsetOf (r := .cmd) fun _ => rfl,
    rfl⟩

end Sys2Proof.Machine
end

section
/-! PROOFS. The host register window (20_memory.md R65 to R67): the bytes of a DIGEST and a SERIAL word, and the one write
that STATUS takes. -/

namespace Sys2Proof.Machine

/-! ## The packed words -/

/-- Byte `k` of a packed word is the `k`-th of the four bytes it was packed from (20_memory.md R66). -/
theorem extractLsb'_wordOfBytes (b : Fin 4 → Byte) (k : Fin 4) :
    (wordOfBytes (b 0) (b 1) (b 2) (b 3)).extractLsb' (8 * k.val) 8 = b k := by
  apply BitVec.eq_of_getLsbD_eq
  intro i hi
  rw [BitVec.getLsbD_extractLsb', getLsbD_wordOfBytes, decide_eq_true hi, Bool.true_and]
  match k with
  | 0 => rw [if_pos (by simpa using hi)]; simp
  | 1 => rw [if_neg (by simp), if_pos (by simp; omega)]; simp
  | 2 => rw [if_neg (by simp; omega), if_neg (by simp), if_pos (by simp; omega)]; simp
  | 3 => rw [if_neg (by simp; omega), if_neg (by simp; omega), if_neg (by simp)]; simp

theorem readReg_digest_byte (s : State) (n : Fin 5) (k : Fin 4) :
    (readReg (.digest n) s).extractLsb' (8 * k.val) 8 = s.dg[4 * n.val + k.val] :=
  extractLsb'_wordOfBytes (fun k => s.dg[4 * n.val + k.val]) k

theorem readReg_serial_byte (s : State) (n : Fin 8) (k : Fin 4) :
    (readReg (.serial n) s).extractLsb' (8 * k.val) 8 = serialByte s (4 * n.val + k.val) :=
  extractLsb'_wordOfBytes (fun k => serialByte s (4 * n.val + k.val)) k

theorem serialByte_of_fin (s : State) (j : Fin 29) : serialByte s j.val = s.serial[j] := dif_pos j.isLt

theorem serialByte_beyond (s : State) {k : Nat} (h : 28 < k) : serialByte s k = 0x00#8 := dif_neg (by omega)

/-- Settles O44: the word a read of DIGESTn answers, byte by byte. -/
theorem digestWordsPackDigest : Obligations.DigestWordsPackDigest := by
  intro s n rest hp
  refine ⟨readReg (.digest n) s, step_read (r := .digest n) hp, ?_⟩
  rintro k ⟨_, _⟩ rfl
  exact readReg_digest_byte s n k

/-- Settles O45: the word a read of SERIALn answers, byte by byte, inside SERIAL and beyond it. -/
theorem serialWordsPackSerial : Obligations.SerialWordsPackSerial := by
  intro s n rest hp
  refine ⟨readReg (.serial n) s, step_read (r := .serial n) hp, fun k j hj => ?_, fun k beyond => ?_⟩
  · rw [readReg_serial_byte, ← hj, serialByte_of_fin]
  · rw [readReg_serial_byte, serialByte_beyond s beyond]

/-! ## A write to a register -/

/-- A write to a register's offset has the effect `writeReg` gives it, on the state with the access taken off. -/
theorem writesAs_offsetOf {r : HostReg} {effect : State → Word → State}
    (h : ∀ s v, writeReg r v s = .next (effect s v)) : WritesAs (offsetOf r) effect := by
  intro s rest v hp
  rw [step_write hp, State.accept_of_pending hp, h]

/-- A STATUS write is the clearing of STICKY, or nothing (20_memory.md R65). -/
theorem State.writeStatus_eq_ite (s : State) (v : Word) :
    s.writeStatus v = if v.getLsbD 2 then { s with sticky := false } else s := by
  cases h : v.getLsbD 2 with
  | true => rw [State.writeStatus, h, Bool.not_true, Bool.and_false, if_pos rfl]
  | false => rw [State.writeStatus, h, Bool.not_false, Bool.and_true, if_neg Bool.false_ne_true]

/-- Settles O47: the effect of a STATUS write, split on bit 2 of the value. -/
theorem statusWriteClearsSticky : Obligations.StatusWriteClearsSticky :=
  writesAs_offsetOf (r := .status) fun s v => congrArg Host.Outcome.next (s.writeStatus_eq_ite v)

end Sys2Proof.Machine
end

section
/-! PROOFS. Command words (30_encoding.md R91 to R98): the four fields as numbers, which words decode to which command,
what a word that is no legal one does, and the count of the legal words. -/

namespace Sys2Proof.Machine

/-! ## The fields of a word (R91) -/

theorem toNat_opField (c : Word) : (opField c).toNat = c.toNat % 32 := by
  rw [opField, extractLsb'_zero_eq_ofNat, BitVec.toNat_ofNat]

theorem toNat_startField (c : Word) : (startField c).toNat = c.toNat / 2 ^ 5 % 128 := by
  rw [startField, extractLsb'_eq_ofNat_div, BitVec.toNat_ofNat]

theorem toNat_widthField (c : Word) : (widthField c).toNat = c.toNat / 2 ^ 12 % 64 := by
  rw [widthField, extractLsb'_eq_ofNat_div, BitVec.toNat_ofNat]

theorem toNat_rsvField (c : Word) : (rsvField c).toNat = c.toNat / 2 ^ 18 := by
  have fits : c.toNat / 2 ^ 18 < 2 ^ 14 := by have := c.isLt; omega
  rw [rsvField, extractLsb'_eq_ofNat_div, BitVec.toNat_ofNat, Nat.mod_eq_of_lt fits]

/-- A word of the format as the sum of its fields at their places. -/
theorem toNat_formatWord (op : BitVec 5) (start : BitVec 7) (width : BitVec 6) :
    (formatWord op start width).toNat = op.toNat + start.toNat * 2 ^ 5 + width.toNat * 2 ^ 12 := by
  show BitVec.toNat (0#14 ++ width ++ start ++ op : BitVec (14 + 6 + 7 + 5)) = _
  simp only [toNat_append_eq_add, BitVec.toNat_ofNat]
  omega

theorem formatWord_fields {c : Word} (h : rsvField c = 0#14) :
    formatWord (opField c) (startField c) (widthField c) = c := by
  have hrsv : c.toNat / 2 ^ 18 = 0 := by rw [← toNat_rsvField, h, BitVec.toNat_zero]
  apply BitVec.eq_of_toNat_eq
  rw [toNat_formatWord, toNat_opField, toNat_startField, toNat_widthField]
  omega

theorem rsvField_eq_zero_iff (c : Word) : rsvField c = 0#14 ↔ c.toNat / 2 ^ 18 = 0 := by
  rw [← toNat_rsvField, ← BitVec.toNat_inj, BitVec.toNat_zero]

theorem startField_eq_zero_iff (c : Word) : startField c = 0#7 ↔ c.toNat / 2 ^ 5 % 128 = 0 := by
  rw [← toNat_startField, ← BitVec.toNat_inj, BitVec.toNat_zero]

theorem widthField_eq_zero_iff (c : Word) : widthField c = 0#6 ↔ c.toNat / 2 ^ 12 % 64 = 0 := by
  rw [← toNat_widthField, ← BitVec.toNat_inj, BitVec.toNat_zero]

/-- The word of a command as the sum `OP + START * 2^5 + WIDTH * 2^12` (R93). -/
theorem toNat_encode (i : Instr) :
    (encode i).toNat = (opcode i).toNat + (startOf i).toNat * 2 ^ 5 + (widthOf i).toNat * 2 ^ 12 :=
  toNat_formatWord _ _ _

/-- Settles O5: each word is the sum of its command's fields. -/
theorem commandWordsFollowOpcodeMap : Obligations.CommandWordsFollowOpcodeMap :=
  ⟨⟨rfl, rfl, rfl, rfl, rfl, rfl, rfl, rfl, rfl, rfl, rfl⟩, fun _ _ =>
    ⟨toNat_encode (.get _ _), toNat_encode (.set _ _), toNat_encode (.getp _ _), toNat_encode (.setp _ _)⟩⟩

/-! ## The opcode map (R93, R94) -/

/-- The field commands are the operation codes 2 to 5. -/
theorem usesField_eq_true_iff (op : BitVec 5) :
    usesField op = true ↔ op.toNat = 2 ∨ op.toNat = 3 ∨ op.toNat = 4 ∨ op.toNat = 5 := by
  simp only [usesField, Bool.and_eq_true, decide_eq_true_eq]
  omega

/-- The codes from 0x0F on are reserved. -/
theorem opcode_lt (i : Instr) : (opcode i).toNat < 0x0F := by
  cases i <;> simp [opcode]

/-- A command that is no field command has START and WIDTH 0 (R96). -/
theorem fieldsOf_eq_zero {i : Instr} (h : usesField (opcode i) = false) : startOf i = 0#7 ∧ widthOf i = 0#6 := by
  cases i with
  | get | set | getp | setp => cases h
  | _ => exact ⟨rfl, rfl⟩

theorem commandOf_fields (i : Instr) : commandOf (opcode i) (startOf i) (widthOf i) = some i := by
  cases i <;> rfl

theorem exists_commandOf {op : BitVec 5} (h : op.toNat < 0x0F) (start : BitVec 7) (width : BitVec 6) :
    ∃ i, commandOf op start width = some i := by
  unfold commandOf
  interval_cases op.toNat
  all_goals exact ⟨_, rfl⟩

theorem commandOf_eq_some {op : BitVec 5} {start : BitVec 7} {width : BitVec 6} {i : Instr}
    (h : commandOf op start width = some i) :
    opcode i = op ∧ (usesField op = true → startOf i = start ∧ widthOf i = width) := by
  unfold commandOf at h
  split at h
  all_goals cases h
  all_goals
    next hop =>
    obtain rfl := eq_ofNat_of_toNat_eq hop
    simp [opcode, startOf, widthOf, usesField]


/-! ## Decoding (R97) -/

/-- A word decodes to a command exactly when RSV is 0 and its fields are the command's. -/
theorem decode_eq_ok_iff {c : Word} {i : Instr} :
    decode c = .ok i ↔
      rsvField c = 0#14 ∧ opcode i = opField c ∧ startOf i = startField c ∧ widthOf i = widthField c := by
  constructor
  · intro h
    unfold decode at h
    split at h
    · cases h
    next hrsv =>
    split at h
    · cases h
    next j hcommand =>
    split at h
    · cases h
    next hunused =>
    cases h
    obtain ⟨hop, hfields⟩ := commandOf_eq_some hcommand
    refine ⟨not_not.mp hrsv, hop, ?_⟩
    cases hfield : usesField (opField c) with
    | true => exact hfields hfield
    | false =>
      obtain ⟨hstart, hwidth⟩ := fieldsOf_eq_zero (i := i) (hop ▸ hfield)
      obtain ⟨hstart', hwidth'⟩ := not_or.mp (not_and.mp hunused hfield)
      exact ⟨hstart.trans (not_not.mp hstart').symm, hwidth.trans (not_not.mp hwidth').symm⟩
  · rintro ⟨hrsv, hop, hstart, hwidth⟩
    have used : ¬ (usesField (opcode i) = false ∧ (startOf i ≠ 0#7 ∨ widthOf i ≠ 0#6)) := by
      rintro ⟨hfield, hne⟩
      obtain ⟨hstart, hwidth⟩ := fieldsOf_eq_zero hfield
      exact hne.elim (absurd hstart) (absurd hwidth)
    simp only [decode, hrsv, ← hop, ← hstart, ← hwidth, commandOf_fields, used, if_false, ne_eq, not_true_eq_false]

/-- The decoder has one error. -/
theorem decode_eq_error {c : Word} (h : ∀ i, decode c ≠ .ok i) : decode c = .error .illegalCommand := by
  cases hd : decode c with
  | ok i => exact absurd hd (h i)
  | error e =>
    unfold decode at hd
    split at hd
    · exact hd.symm
    split at hd
    · exact hd.symm
    split at hd
    · exact hd.symm
    · cases hd

/-- A word that passes every check on its form is the word of some command. -/
theorem exists_decode_eq_ok {c : Word} (hrsv : rsvField c = 0#14) (hop : (opField c).toNat < 0x0F)
    (hunused : usesField (opField c) = false → startField c = 0#7 ∧ widthField c = 0#6) : ∃ i, decode c = .ok i := by
  obtain ⟨i, hi⟩ := exists_commandOf hop (startField c) (widthField c)
  obtain ⟨hopcode, hfields⟩ := commandOf_eq_some hi
  refine ⟨i, decode_eq_ok_iff.mpr ⟨hrsv, hopcode, ?_⟩⟩
  cases hfield : usesField (opField c) with
  | true => exact hfields hfield
  | false =>
    obtain ⟨hstart, hwidth⟩ := hunused hfield
    rw [hstart, hwidth]
    exact fieldsOf_eq_zero (hopcode ▸ hfield)

/-! ## What a word written to CMD does -/

/-- A command is well-formed exactly when the span its word names lies in the record. -/
theorem wellFormed_iff_span (i : Instr) : i.WellFormed ↔ SpanInRecord (startOf i) (widthOf i) := by
  cases i with
  | get | set | getp | setp => exact decide_eq_true_iff
  | _ => exact iff_of_true rfl (Nat.zero_le 125)

theorem runCommand_of_ok {c : Word} {i : Instr} (h : decode c = .ok i) (s : State) :
    runCommand c s = exec i (s.setLastCmd c) := by
  simp only [runCommand, runCommandBy, h]

theorem endsInError_of_undecodable {c : Word} (h : ∀ i, decode c ≠ .ok i) : EndsInError c 4#4 := by
  intro s
  obtain ⟨i, hi, -⟩ | ⟨e, he, hrun⟩ := runCommand_cases c s
  · exact absurd hi (h i)
  · obtain rfl := Except.error.inj (he.symm.trans (decode_eq_error h))
    exact hrun

/-- The range check: a command with a span beyond cell 124 reports FIELD_RANGE and does nothing else. -/
theorem exec_of_not_wellFormed {i : Instr} (h : ¬ i.WellFormed) (s : State) :
    exec i s = .next (s.raiseCmdError .fieldRange) := by
  have outside := (wellFormed_iff_span i).not.mp h
  cases i with
  | get | set | getp | setp => exact congrArg (endCommand s) (withSpan_outside outside _)
  | _ => exact absurd rfl h

theorem endsInError_of_not_wellFormed {c : Word} {i : Instr} (hdecode : decode c = .ok i) (h : ¬ i.WellFormed) :
    EndsInError c 5#4 := fun s => (runCommand_of_ok hdecode s).trans (exec_of_not_wellFormed h _)

/-- Settles O6: the first four checks leave no command or an ill-formed one, and a word that passes them has one. -/
theorem decodeChecksInOrder : Obligations.DecodeChecksInOrder := by
  intro c op start width isField
  have field_iff : usesField (opField c) = true ↔ isField := by
    rw [usesField_eq_true_iff, toNat_opField]
  have unused_iff : usesField (opField c) = false ↔ ¬ isField := by
    rw [← field_iff, Bool.not_eq_true]
  refine ⟨fun hrsv => ?rsv, fun _ hop => ?reserved, fun _ _ hplain hne => ?unused, fun hrsv hfield hspan => ?range,
    fun hrsv hop _ hzero => ?legal⟩
  case rsv =>
    refine endsInError_of_undecodable fun i hi => hrsv ?_
    obtain ⟨hrsv, -⟩ := decode_eq_ok_iff.mp hi
    exact (rsvField_eq_zero_iff c).mp hrsv
  case reserved =>
    refine endsInError_of_undecodable fun i hi => ?_
    obtain ⟨-, hopcode, -⟩ := decode_eq_ok_iff.mp hi
    have := opcode_lt i
    rw [hopcode, toNat_opField] at this
    omega
  case unused =>
    refine endsInError_of_undecodable fun i hi => ?_
    obtain ⟨-, hopcode, hstart, hwidth⟩ := decode_eq_ok_iff.mp hi
    obtain ⟨hstart0, hwidth0⟩ := fieldsOf_eq_zero (i := i) (hopcode ▸ unused_iff.mpr hplain)
    exact hne.elim (absurd ((startField_eq_zero_iff c).mp (hstart ▸ hstart0)))
      (absurd ((widthField_eq_zero_iff c).mp (hwidth ▸ hwidth0)))
  case range =>
    have used := field_iff.mpr hfield
    obtain ⟨i, hi⟩ := exists_decode_eq_ok ((rsvField_eq_zero_iff c).mpr hrsv) (by rw [toNat_opField]; omega)
      (fun unused => absurd used (by rw [unused]; decide))
    obtain ⟨-, -, hstart, hwidth⟩ := decode_eq_ok_iff.mp hi
    refine endsInError_of_not_wellFormed hi fun wf => ?_
    have inside := (wellFormed_iff_span i).mp wf
    rw [hstart, hwidth, SpanInRecord, toNat_startField, toNat_widthField] at inside
    omega
  case legal =>
    obtain ⟨i, hi⟩ := exists_decode_eq_ok ((rsvField_eq_zero_iff c).mpr hrsv) (by rwa [toNat_opField])
      fun unused => by
        rw [startField_eq_zero_iff, widthField_eq_zero_iff]
        exact hzero (unused_iff.mp unused)
    obtain ⟨-, hopcode, hstart, hwidth⟩ := decode_eq_ok_iff.mp hi
    exact ⟨i, by rw [hopcode, toNat_opField], by rw [hstart, toNat_startField], by rw [hwidth, toNat_widthField],
      runCommand_of_ok hi⟩

/-! ## The legal words (R98) -/

theorem legalWord_iff (c : Word) :
    LegalWord c ↔ rsvField c = 0#14 ∧ (opField c).toNat < 0x0F ∧ SpanInRecord (startField c) (widthField c) ∧
      (usesField (opField c) = false → startField c = 0#7 ∧ widthField c = 0#6) := by
  constructor
  · rintro ⟨i, hi, wf⟩
    obtain ⟨hrsv, hopcode, hstart, hwidth⟩ := decode_eq_ok_iff.mp hi
    rw [← hopcode, ← hstart, ← hwidth]
    exact ⟨hrsv, opcode_lt i, (wellFormed_iff_span i).mp wf, fieldsOf_eq_zero⟩
  · rintro ⟨hrsv, hop, hspan, hunused⟩
    obtain ⟨i, hi⟩ := exists_decode_eq_ok hrsv hop hunused
    obtain ⟨-, -, hstart, hwidth⟩ := decode_eq_ok_iff.mp hi
    exact ⟨i, hi, (wellFormed_iff_span i).mpr (by rwa [hstart, hwidth])⟩

/-- A word that is not legal does not decode, or its command fails the range check. -/
theorem endsInError_of_not_legalWord {c : Word} (h : ¬ LegalWord c) : EndsInError c 4#4 ∨ EndsInError c 5#4 := by
  by_cases hd : ∃ i, decode c = .ok i
  · obtain ⟨i, hi⟩ := hd
    exact .inr (endsInError_of_not_wellFormed hi fun wf => h ⟨i, hi, wf⟩)
  · exact .inl (endsInError_of_undecodable (not_exists.mp hd))

/-- START and WIDTH of the legal words of one operation code (R95, R96). -/
def legalOperands (op : BitVec 5) : Set (BitVec 7 × BitVec 6) :=
  {x | SpanInRecord x.1 x.2 ∧ (usesField op = false → x.1 = 0#7 ∧ x.2 = 0#6)}

/-- The legal words with operation code `op`. -/
def legalWordsOf (op : Nat) : Set Word := {c | LegalWord c ∧ c.toNat % 32 = op}

theorem formatWord_injective (op : BitVec 5) :
    Function.Injective fun x : BitVec 7 × BitVec 6 => formatWord op x.1 x.2 := by
  intro x y h
  apply Prod.ext
  · rw [← startField_formatWord op x.1 x.2, ← startField_formatWord op y.1 y.2]
    exact congrArg startField h
  · rw [← widthField_formatWord op x.1 x.2, ← widthField_formatWord op y.1 y.2]
    exact congrArg widthField h

/-- The legal words of an operation code are its words of the format with legal operands. -/
theorem legalWordsOf_eq_image {op : BitVec 5} (h : op.toNat < 0x0F) :
    legalWordsOf op.toNat = (fun x => formatWord op x.1 x.2) '' legalOperands op := by
  ext c
  constructor
  · rintro ⟨hlegal, hop⟩
    obtain ⟨hrsv, -, hspan, hunused⟩ := (legalWord_iff c).mp hlegal
    obtain rfl : opField c = op := BitVec.eq_of_toNat_eq ((toNat_opField c).trans hop)
    exact ⟨(startField c, widthField c), ⟨hspan, hunused⟩, formatWord_fields hrsv⟩
  · rintro ⟨x, ⟨hspan, hunused⟩, rfl⟩
    refine ⟨(legalWord_iff _).mpr ?_, ?_⟩
    · rw [rsvField_formatWord, opField_formatWord, startField_formatWord, widthField_formatWord]
      exact ⟨rfl, h, hspan, hunused⟩
    · rw [← toNat_opField, opField_formatWord]

theorem ncard_legalWordsOf {op : BitVec 5} (h : op.toNat < 0x0F) :
    (legalWordsOf op.toNat).ncard = (legalOperands op).ncard := by
  rw [legalWordsOf_eq_image h, Set.ncard_image_of_injective _ (formatWord_injective op)]

/-- WIDTH and START of the spans in the record, by width: a width `w` leaves the starts 0 to 125 - `w`. -/
def spanIndices : Finset (Σ _ : Nat, Nat) := (Finset.range 64).sigma fun w => Finset.range (126 - w)

theorem card_spanIndices : spanIndices.card = 6048 := by
  rw [spanIndices, Finset.card_sigma]
  simp only [Finset.card_range]
  decide

/-- A span as a pair of numbers, WIDTH first. -/
def spanIndex (x : BitVec 7 × BitVec 6) : Σ _ : Nat, Nat := ⟨x.2.toNat, x.1.toNat⟩

theorem spanIndex_injective : Function.Injective spanIndex := by
  intro x y h
  obtain ⟨hwidth, hstart⟩ := Sigma.mk.inj h
  exact Prod.ext (BitVec.eq_of_toNat_eq (eq_of_heq hstart)) (BitVec.eq_of_toNat_eq hwidth)

theorem image_spanIndex_legalOperands {op : BitVec 5} (h : usesField op = true) :
    spanIndex '' legalOperands op = spanIndices := by
  ext ⟨w, s⟩
  simp only [spanIndices, Finset.coe_sigma, Set.mem_sigma_iff, Finset.coe_range, Set.mem_Iio]
  constructor
  · rintro ⟨⟨start, width⟩, ⟨hspan, -⟩, hx⟩
    cases hx
    exact ⟨width.isLt, by omega⟩
  · rintro ⟨hw, hs⟩
    have hstart : (BitVec.ofNat 7 s).toNat = s := Nat.mod_eq_of_lt (by omega)
    have hwidth : (BitVec.ofNat 6 w).toNat = w := Nat.mod_eq_of_lt hw
    refine ⟨(BitVec.ofNat 7 s, BitVec.ofNat 6 w), ⟨?_, fun hplain => absurd h (by rw [hplain]; decide)⟩, ?_⟩
    · rw [SpanInRecord, hstart, hwidth]
      omega
    · rw [spanIndex, hstart, hwidth]

theorem ncard_legalOperands_of_field {op : BitVec 5} (h : usesField op = true) : (legalOperands op).ncard = 6048 := by
  rw [← Set.ncard_image_of_injective _ spanIndex_injective, image_spanIndex_legalOperands h, Set.ncard_coe_finset,
    card_spanIndices]

theorem ncard_legalOperands_of_plain {op : BitVec 5} (h : usesField op = false) : (legalOperands op).ncard = 1 := by
  have only_zero : legalOperands op = {(0#7, 0#6)} := by
    ext x
    constructor
    · rintro ⟨-, hzero⟩
      obtain ⟨hstart, hwidth⟩ := hzero h
      exact Prod.ext hstart hwidth
    · rintro rfl
      exact ⟨Nat.zero_le 125, fun _ => ⟨rfl, rfl⟩⟩
  rw [only_zero, Set.ncard_singleton]

theorem legalWordsOf_reserved {op : Nat} (h : 0x0F ≤ op) : legalWordsOf op = ∅ := by
  refine Set.eq_empty_of_forall_notMem fun c hc => ?_
  obtain ⟨hlegal, hop⟩ := hc
  obtain ⟨-, hlt, -⟩ := (legalWord_iff c).mp hlegal
  rw [toNat_opField] at hlt
  omega

/-- The number of legal words with a given operation code. -/
def legalCount (op : Nat) : Nat := if 2 ≤ op ∧ op ≤ 5 then 6048 else if op < 15 then 1 else 0

theorem ncard_legalWordsOf_eq (op : Nat) : (legalWordsOf op).ncard = legalCount op := by
  by_cases hop : op < 0x0F
  · obtain ⟨code, rfl⟩ : ∃ code : BitVec 5, code.toNat = op := ⟨BitVec.ofNat 5 op, Nat.mod_eq_of_lt (by omega)⟩
    rw [ncard_legalWordsOf hop, legalCount]
    cases hfield : usesField code with
    | true =>
      rw [ncard_legalOperands_of_field hfield, if_pos]
      have := (usesField_eq_true_iff code).mp hfield
      omega
    | false =>
      rw [ncard_legalOperands_of_plain hfield, if_neg, if_pos hop]
      have := (usesField_eq_true_iff code).not.mp (by rw [hfield]; decide)
      omega
  · rw [legalWordsOf_reserved (by omega), Set.ncard_empty, legalCount, if_neg (by omega), if_neg hop]

/-- Every legal word has one of the 32 operation codes. -/
theorem legalWords_eq_iUnion : {c : Word | LegalWord c} = ⋃ op : Fin 32, legalWordsOf op.val := by
  ext c
  rw [Set.mem_iUnion]
  exact ⟨fun h => ⟨⟨c.toNat % 32, Nat.mod_lt _ (by decide)⟩, h, rfl⟩, fun ⟨_, h, _⟩ => h⟩

theorem ncard_legalWords : {c : Word | LegalWord c}.ncard = 11 + 24192 := by
  have disjoint : Pairwise fun i j : Fin 32 => Disjoint (legalWordsOf i.val) (legalWordsOf j.val) := by
    intro i j hne
    refine Set.disjoint_left.mpr ?_
    rintro c ⟨-, hi⟩ ⟨-, hj⟩
    exact hne (Fin.ext (hi.symm.trans hj))
  rw [legalWords_eq_iUnion, Set.ncard_iUnion_of_finite (fun _ => Set.toFinite _) disjoint,
    finsum_eq_sum_of_fintype]
  simp only [ncard_legalWordsOf_eq]
  decide

/-- Settles O7: the legal words are counted by their operands, operation code by operation code. -/
theorem legalWordsCounted : Obligations.LegalWordsCounted :=
  ⟨fun op _ => ncard_legalWordsOf_eq op, ncard_legalWords, fun _ h => endsInError_of_not_legalWord h⟩

end Sys2Proof.Machine
end

section
/-! PROOFS. Record access (40_record_access.md R120 to R126): the field primitives cell by cell, the words of each
operation code that end in an error, and the next state of NOP, CLEAR, GET, SET, GETP and SETP. -/

namespace Sys2Proof.Machine

/-! ## The field primitives (R122) -/

theorem toNat_getf (a : Record) (s w : Nat) :
    (getf a s w).toNat = ∑ i ∈ Finset.range w, (a.getLsbD (s + i)).toNat * 2 ^ i := by
  rw [← sumBits_eq_sum fun i => a.getLsbD (s + i)]
  apply Nat.eq_of_testBit_eq
  intro i
  rw [BitVec.testBit_toNat, getLsbD_getf, testBit_sumBits]

theorem getLsbD_setf_inside {n : Nat} (a : Record) {s w i : Nat} (v : BitVec n) (fits : s + w ≤ 125) (hi : i < w) :
    (setf a s w v).getLsbD (s + i) = v.getLsbD i := by
  have cell : s + i < 125 := by omega
  have inside : s ≤ s + i ∧ s + i < s + w := by omega
  rw [getLsbD_setf, decide_eq_true cell, Bool.true_and, if_pos inside, Nat.add_sub_cancel_left]

theorem getLsbD_setf_outside {n : Nat} (a : Record) {s w k : Nat} (v : BitVec n) (hk : k < s ∨ s + w ≤ k) :
    (setf a s w v).getLsbD k = a.getLsbD k := by
  have outside : ¬ (s ≤ k ∧ k < s + w) := by omega
  rw [getLsbD_setf, if_neg outside]
  by_cases cell : k < 125
  · rw [decide_eq_true cell, Bool.true_and]
  · rw [decide_eq_false cell, Bool.false_and, BitVec.getLsbD_of_ge a k (not_lt.mp cell)]

/-- Settles O9: the value of `getf` as a sum, and the cells of `setf` inside and outside the span. -/
theorem fieldPrimitives : Obligations.FieldPrimitives := fun a s w fits =>
  ⟨toNat_getf a s w, (getf a s w).isLt, fun _ v =>
    ⟨fun _ hi => getLsbD_setf_inside a v fits hi, fun _ hk => getLsbD_setf_outside a v hk⟩⟩

/-! ## The words that end in an error (R94 to R97), one operation code at a time -/

/-- An operation code without operands has no legal word but itself: another word has a bit in RSV, START or WIDTH. -/
theorem noOtherWord {op : Nat} (hop : op < 0x0F) (plain : ¬ (op = 2 ∨ op = 3 ∨ op = 4 ∨ op = 5)) : NoOtherWord op := by
  rintro c rfl other
  obtain ⟨rsv, -, unused, -⟩ := decodeChecksInOrder c
  by_cases hrsv : c.toNat / 2 ^ 18 = 0
  · exact unused hrsv hop plain (by omega)
  · exact rsv hrsv

theorem fieldWordErrors {op : Nat} (field : op = 2 ∨ op = 3 ∨ op = 4 ∨ op = 5) : FieldWordErrors op := by
  rintro c rfl
  obtain ⟨rsv, -, -, range, -⟩ := decodeChecksInOrder c
  exact ⟨fun large => rsv (by omega), fun small beyond => range (by omega) field (by omega)⟩

/-! ## NOP and CLEAR (R120, R121) -/

/-- Settles O10: NOP completes without an effect. -/
theorem nopWritesOnlyStatus : Obligations.NopWritesOnlyStatus :=
  ⟨rfl, noOtherWord (by decide) (by decide), fun _ => rfl⟩

/-- Settles O11: CLEAR completes a write of the zero record. -/
theorem clearZeroesRecord : Obligations.ClearZeroesRecord :=
  ⟨rfl, noOtherWord (by decide) (by decide), fun s =>
    ⟨(s.setRec 0#125).complete, rfl, fun _ => BitVec.getLsbD_zero, s.setRec_complete 0#125⟩⟩

/-! ## The field commands (R123 to R126) -/

/-- FIELD_RANGE: a span beyond cell 124 leaves everything but STATUS. -/
theorem exec_of_span_beyond {i : Instr} (beyond : 125 < (startOf i).toNat + (widthOf i).toNat) (s : State) :
    exec i s = .next { s with ok := false, err := true, sticky := true, errCode := 5#4 } :=
  exec_of_not_wellFormed (fun wf => Nat.not_le.mpr beyond ((wellFormed_iff_span i).mp wf)) s

section span

variable {start : BitVec 7} {width : BitVec 6}

/-- The value GET and GETP deliver, as the sum of the span's cells. -/
theorem readSpan_eq_ofNat_sum (a : Record) :
    readSpan a start width =
      BitVec.ofNat 64 (∑ i ∈ Finset.range width.toNat, (a.getLsbD (start.toNat + i)).toNat * 2 ^ i) := by
  rw [← toNat_getf, BitVec.ofNat_toNat, readSpan]

theorem exec_get_inside (h : SpanInRecord start width) (s : State) :
    exec (.get start width) s = .next (s.setDout (readSpan s.recReg start width)).complete :=
  congrArg (endCommand s) (withSpan_inside h _)

theorem exec_set_inside (h : SpanInRecord start width) (s : State) :
    exec (.set start width) s = .next (s.setRec (writeSpan s.recReg start width s.din)).complete :=
  congrArg (endCommand s) (withSpan_inside h _)

theorem exec_getp_inside (h : SpanInRecord start width) (s : State) :
    exec (.getp start width) s = .next (s.setDout (readSpan s.precReg start width)).complete :=
  congrArg (endCommand s) (withSpan_inside h _)

theorem exec_setp_inside (h : SpanInRecord start width) (s : State) :
    exec (.setp start width) s = .next (s.setPrec (writeSpan s.precReg start width s.din)).complete :=
  congrArg (endCommand s) (withSpan_inside h _)

end span

/-- Settles O12: on a span that fits GET completes a write of DOUT, on any other it reports FIELD_RANGE. -/
theorem getReadsRecordField : Obligations.GetReadsRecordField := by
  refine ⟨fieldWordErrors (by decide), fun start width =>
    ⟨toNat_encode (.get start width), fun s => ⟨fun inside => ?_, fun beyond => ?_⟩⟩⟩
  · rw [exec_get_inside inside, readSpan_eq_ofNat_sum, State.setDout_complete]
  · exact exec_of_span_beyond (i := .get start width) beyond s

/-- Settles O13: on a span that fits SET completes a write of REC, whose cells are those of `setf`. -/
theorem setWritesRecordField : Obligations.SetWritesRecordField := by
  refine ⟨fieldWordErrors (by decide), fun start width =>
    ⟨toNat_encode (.set start width), fun s => ⟨fun inside => ?_, fun beyond => ?_⟩⟩⟩
  · refine ⟨_, exec_set_inside inside s, fun i hi => ?_, fun k hk => ?_, State.setRec_complete s _⟩
    · exact getLsbD_setf_inside s.recReg s.din inside hi
    · exact getLsbD_setf_outside s.recReg s.din hk
  · exact exec_of_span_beyond (i := .set start width) beyond s

/-- Settles O14: GETP completes a write of DOUT with the field of PREC, or reports FIELD_RANGE. -/
theorem getpReadsPermutedField : Obligations.GetpReadsPermutedField := by
  refine ⟨fieldWordErrors (by decide), fun start width =>
    ⟨toNat_encode (.getp start width), fun s => ⟨fun inside => ?_, fun beyond => ?_⟩⟩⟩
  · rw [exec_getp_inside inside, readSpan_eq_ofNat_sum, State.setDout_complete]
  · exact exec_of_span_beyond (i := .getp start width) beyond s

/-- Settles O15: on a span that fits SETP completes a write of PREC, whose cells are those of `setf`. -/
theorem setpWritesPermutedField : Obligations.SetpWritesPermutedField := by
  refine ⟨fieldWordErrors (by decide), fun start width =>
    ⟨toNat_encode (.setp start width), fun s => ⟨fun inside => ?_, fun beyond => ?_⟩⟩⟩
  · refine ⟨_, exec_setp_inside inside s, fun i hi => ?_, fun k hk => ?_, State.setPrec_complete s _⟩
    · exact getLsbD_setf_inside s.precReg s.din inside hi
    · exact getLsbD_setf_outside s.precReg s.din hk
  · exact exec_of_span_beyond (i := .setp start width) beyond s

end Sys2Proof.Machine
end

section
/-! PROOFS. The field packer (41_packing.md R150 to R154): what a command behind the argument check answers, the cells
of the packed record layer by layer, and the next state of VALIDATE and PACK. -/

namespace Sys2Proof.Machine

/-! ## A command behind the argument check (R150) -/

/-- On valid operands a checked command completes its effect. -/
theorem endCommand_of_argsValid {s : State} (h : ArgsValid s) (effect : State) :
    endCommand s ((checkArgs s).map fun _ => effect) = .next effect.complete := by
  rw [checkArgs_ok s h]
  rfl

/-- On failing operands a checked command reports the first failing check, and its effect does not happen. -/
theorem endCommand_of_argsFail {s : State} {code : BitVec 4} (h : ArgsFail s code) (effect : State) :
    endCommand s ((checkArgs s).map fun _ => effect) =
      .next { s with ok := false, err := true, sticky := true, errCode := code } := by
  obtain ⟨e, failed, rfl⟩ := checkArgs_error s code h
  rw [failed]
  rfl

/-- Settles O17: VALIDATE is the argument check without an effect. -/
theorem validateChecksInOrder : Obligations.ValidateChecksInOrder :=
  ⟨rfl, noOtherWord (by decide) (by decide), fun s =>
    ⟨fun valid => endCommand_of_argsValid valid s, fun _ failing => endCommand_of_argsFail failing s⟩⟩

/-! ## The cells of the packed record (R152) -/

/-- Every named field lies in the record (00_scope.md R17). -/
theorem Field.start_add_width_le (f : Field) : f.start + f.width ≤ 125 := by
  cases f <;> decide

/-- `setf` of an operand's low bits, as many as the field is wide: the field's cells hold the operand's bits. -/
theorem getLsbD_setField_lowBits {n : Nat} (f : Field) (w : Nat) (hw : f.width = w) (a : Record) (x : BitVec n)
    (k : Nat) :
    (setField a f (x.extractLsb' 0 w)).getLsbD k =
      if f.start ≤ k ∧ k < f.start + w then x.getLsbD (k - f.start) else a.getLsbD k := by
  subst hw
  have fits := Field.start_add_width_le f
  split
  case isTrue inside =>
    obtain ⟨i, rfl⟩ := Nat.exists_eq_add_of_le inside.1
    have hi : i < f.width := by omega
    rw [setField, getLsbD_setf_inside a _ fits hi, Nat.add_sub_cancel_left, BitVec.getLsbD_extractLsb',
      decide_eq_true hi, Bool.true_and, Nat.zero_add]
  case isFalse outside => exact getLsbD_setf_outside a _ (by omega)

theorem getLsbD_setField_zero (f : Field) (w : Nat) (hw : f.width = w) (a : Record) (k : Nat) :
    (setField a f 0#w).getLsbD k = if f.start ≤ k ∧ k < f.start + w then false else a.getLsbD k := by
  have zero : 0#w = (0#w).extractLsb' 0 w := by simp
  rw [zero, getLsbD_setField_lowBits f w hw, BitVec.getLsbD_zero]

theorem getLsbD_packAlways (s : State) (k : Nat) :
    (packAlways s).getLsbD k =
      if 110 ≤ k ∧ k < 125 then s.batchSeed.getLsbD (k - 110)
      else if 105 ≤ k ∧ k < 110 then s.argVersion.getLsbD (k - 105)
      else if 80 ≤ k ∧ k < 105 then s.unitSeed.getLsbD (k - 80)
      else false := by
  rw [packAlways, batchIdOf, unitIdOf, getLsbD_setField_lowBits .batchId 15 rfl,
    getLsbD_setField_lowBits .version 5 rfl, getLsbD_setField_lowBits .unitId 25 rfl, BitVec.getLsbD_zero]
  rfl

/-- Support, Subscription, Expiration and Issue join to the cells 61 .. 79, all zero. -/
theorem getLsbD_packCount (s : State) (r : Record) (k : Nat) :
    (packCount s r).getLsbD k =
      if 61 ≤ k ∧ k < 80 then false
      else if 45 ≤ k ∧ k < 61 then s.argCount.getLsbD (k - 45)
      else r.getLsbD k := by
  rw [packCount, getLsbD_setField_zero .issue 12 rfl, getLsbD_setField_zero .expiration 2 rfl,
    getLsbD_setField_zero .subscription 3 rfl, getLsbD_setField_zero .support 2 rfl,
    getLsbD_setField_lowBits .count 16 rfl]
  simp only [Field.start, Nat.reduceAdd]
  grind

theorem getLsbD_packFlags (s : State) (r : Record) (k : Nat) :
    (packFlags s r).getLsbD k = if 40 ≤ k ∧ k < 45 then s.argAddons.getLsbD (k - 40) else r.getLsbD k := by
  rw [packFlags, flagsOf, getLsbD_setField_lowBits .addonFlags 5 rfl]
  rfl

/-! The version gates (R154). -/

theorem packedRecord_below_six {s : State} (h : versionOf s < 6) : packedRecord s = packAlways s := by
  have gate6 : ¬ 6 ≤ versionOf s := by omega
  have gate8 : ¬ 8 ≤ versionOf s := by omega
  rw [packedRecord, if_neg gate6, if_neg gate8]

theorem packedRecord_below_eight {s : State} (h6 : 6 ≤ versionOf s) (h8 : versionOf s < 8) :
    packedRecord s = packCount s (packAlways s) := by
  have gate8 : ¬ 8 ≤ versionOf s := by omega
  rw [packedRecord, if_pos h6, if_neg gate8]

theorem packedRecord_from_eight {s : State} (h : 8 ≤ versionOf s) :
    packedRecord s = packFlags s (packCount s (packAlways s)) := by
  have gate6 : 6 ≤ versionOf s := by omega
  rw [packedRecord, if_pos gate6, if_pos h]

/-- In each of the three ranges of the version, the layers PACK writes hold the cells of the field table (00_scope.md
R17). -/
theorem getLsbD_packedRecord (s : State) (k : Nat) : (packedRecord s).getLsbD k = packedCell s k := by
  unfold packedCell
  rw [← versionOf]
  obtain below6 | ⟨from6, below8⟩ | from8 :
      versionOf s < 6 ∨ (6 ≤ versionOf s ∧ versionOf s < 8) ∨ 8 ≤ versionOf s := by omega
  · rw [packedRecord_below_six below6, getLsbD_packAlways]
    grind
  · rw [packedRecord_below_eight from6 below8, getLsbD_packCount, getLsbD_packAlways]
    grind
  · rw [packedRecord_from_eight from8, getLsbD_packFlags, getLsbD_packCount, getLsbD_packAlways]
    grind

/-- Settles O18: on valid operands PACK completes a write of REC with the packed record, on failing ones it only
reports. -/
theorem packWritesGatedFields : Obligations.PackWritesGatedFields :=
  ⟨rfl, noOtherWord (by decide) (by decide), fun s =>
    ⟨fun valid => ⟨s.packBody.complete, endCommand_of_argsValid valid s.packBody, getLsbD_packedRecord s,
      s.setRec_complete (packedRecord s)⟩,
    fun _ failing => endCommand_of_argsFail failing s.packBody⟩⟩

end Sys2Proof.Machine
end

section
/-! PROOFS. The checksum engine (42_checksum.md R180 to R190): the SECRET store after SKCLR and SKPUSH, the fold as a sum of
its lanes, the digest message against its window bit by bit, and the next state of CHECKSUM and WRHASH. -/

namespace Sys2Proof.Machine

/-! ## The SECRET store (R180, R181) -/

theorem secretBytes_of_length_zero {s : State} (h : s.secretLen = 0#8) : secretBytes s = [] := by
  rw [← List.length_eq_zero_iff, secretBytes_length, h]
  rfl

/-- Settles O19: SKCLR completes a write of SECRET_LEN alone, and a store of length 0 holds no secret. -/
theorem skclrEmptiesStore : Obligations.SkclrEmptiesStore :=
  ⟨rfl, noOtherWord (by decide) (by decide), fun s =>
    ⟨secretBytes_of_length_zero rfl, congrArg Host.Outcome.next (s.setSecret_complete s.secret 0#8)⟩⟩

/-- SKPUSH on a store that is not full: DIN[7:0] goes to index SECRET_LEN. -/
theorem exec_skpush_of_ne {s : State} (h : s.secretLen.toNat ≠ s.cfg.secretMax) :
    exec .skpush s =
      .next (s.setSecret (Memory.write s.secret s.secretLen.toNat (s.din.extractLsb' 0 8))
        (s.secretLen + 1#8)).complete :=
  congrArg (endCommand s) (if_neg h)

theorem exec_skpush_full {s : State} (h : s.secretLen.toNat = s.cfg.secretMax) :
    exec .skpush s = .next (s.raiseCmdError .secretFull) :=
  congrArg (endCommand s) (if_pos h)

/-- SECRET_LEN does not wrap below SECRET_MAX, which its 8 bits hold (10_state.md R29). -/
theorem toNat_secretLen_add_one {s : State} (h : s.secretLen.toNat < s.cfg.secretMax) :
    (s.secretLen + 1#8).toNat = s.secretLen.toNat + 1 := by
  obtain ⟨-, -, -, -, -, fits⟩ := s.cfg.wellFormed
  exact BitVec.toNat_add_of_lt (by rw [BitVec.toNat_ofNat]; omega)

/-- Settles O20: below SECRET_MAX SKPUSH completes one write of the store, at SECRET_MAX it reports SECRET_FULL. -/
theorem skpushAppendsByte : Obligations.SkpushAppendsByte := by
  refine ⟨rfl, noOtherWord (by decide) (by decide), fun s => ⟨fun below => ?_, exec_skpush_full⟩⟩
  refine ⟨_, exec_skpush_of_ne below.ne, ?written, fun a ha => ?other, toNat_secretLen_add_one below,
    s.setSecret_complete _ _⟩
  case written =>
    show (Memory.read (Memory.write _ _ _) _).toNat = _
    rw [Memory.read_write, if_pos rfl, extractLsb'_zero_eq_ofNat, BitVec.toNat_ofNat]
  case other =>
    show Memory.read (Memory.write _ _ _) a = _
    rw [Memory.read_write, if_neg ha]

/-! ## The fold (R187, R188) -/

/-- A byte OR-ed in at bit `n`, above `n` bits, is appended to them: the two do not overlap (R188). -/
theorem setWidth_append_eq_or_lane {n : Nat} (g : Byte) (x : BitVec n) (w : Nat) :
    (g ++ x).setWidth w = x.setWidth w ||| g.setWidth w <<< n := by
  apply BitVec.eq_of_getLsbD_eq
  intro k hk
  simp only [BitVec.getLsbD_or, BitVec.getLsbD_setWidth, BitVec.getLsbD_shiftLeft, BitVec.getLsbD_append]
  by_cases low : k < n
  · simp [hk, low]
  · have cell : k - n < w := by omega
    simp [hk, low, cell, BitVec.getLsbD_of_ge x k (not_lt.mp low)]

/-- The fold puts its lanes side by side, lane 0 in the low byte. -/
theorem fold_eq_append (d : Vector Byte 20) :
    fold d =
      (foldLane d 4 ++ (foldLane d 3 ++ (foldLane d 2 ++ (foldLane d 1 ++ foldLane d 0)))).setWidth 40 := by
  simp only [setWidth_append_eq_or_lane]
  rfl

theorem toNat_fold (d : Vector Byte 20) :
    (fold d).toNat =
      (foldLane d 0).toNat + (foldLane d 1).toNat * 2 ^ 8 + (foldLane d 2).toNat * 2 ^ 16 +
        (foldLane d 3).toNat * 2 ^ 24 + (foldLane d 4).toNat * 2 ^ 32 := by
  rw [fold_eq_append, BitVec.toNat_setWidth_of_le (by decide)]
  simp only [toNat_append_eq_add]
  omega

/-- Settles O22: each lane is the XOR of its four digest bytes. -/
theorem foldIsFiveLanes : Obligations.FoldIsFiveLanes := toNat_fold

/-! ## The digest message (R184 to R186) and CHECKSUM (R189) -/

theorem extractLsb'_eq_ofNat_sum {n : Nat} (x : BitVec n) (start len : Nat) :
    x.extractLsb' start len =
      BitVec.ofNat len (∑ j ∈ Finset.range len, (x.getLsbD (start + j)).toNat * 2 ^ j) := by
  rw [← sumBits_eq_sum fun j => x.getLsbD (start + j)]
  apply BitVec.eq_of_getLsbD_eq
  intro j hj
  rw [BitVec.getLsbD_extractLsb', BitVec.getLsbD_ofNat, testBit_sumBits, decide_eq_true hj, Bool.true_and,
    Bool.true_and]

theorem getLsbD_windowCells_eq_recbit (s : State) (k : Nat) :
    (windowCells s.cfg s.recReg).getLsbD k = recbit s k := by
  simp only [getLsbD_windowCells, recbit, Nat.lt_succ_iff]

theorem windowByte_eq_ofNat_sum (s : State) (i : Nat) :
    windowByte s.cfg s.recReg i =
      BitVec.ofNat 8 (∑ j ∈ Finset.range 8, (recbit s (40 + 8 * i + j)).toNat * 2 ^ j) := by
  simp only [windowByte, extractLsb'_eq_ofNat_sum, getLsbD_windowCells_eq_recbit]

/-- The message CHECKSUM hashes is the one R184 and R185 write. -/
theorem digestMessage_eq_specMessage (s : State) : digestMessage s = specMessage s := by
  rw [digestMessage, funext (windowByte_eq_ofNat_sum s), secretBytes, specMessage]

/-- CHECKSUM's next state under any digest. -/
theorem execChecksumWith_eq (D : Digest160) (s : State) :
    execChecksumWith D s = .next { s with
      dg := D (specMessage s), ck := fold (D (specMessage s)), ok := true, err := false, errCode := 0#4 } := by
  rw [execChecksumWith, endCommand_ok, State.checksumBodyWith, digestMessage_eq_specMessage, State.setChecksum_complete]

/-- Settles O23: CHECKSUM under the configuration's digest. -/
theorem checksumHashesWindow : Obligations.ChecksumHashesWindow :=
  ⟨rfl, noOtherWord (by decide) (by decide), fun s => execChecksumWith_eq (digest160 s.cfg.digest) s⟩

/-! ## WRHASH (R190) -/

/-- The Hash field is the record's first 40 cells (00_scope.md R17). -/
theorem getLsbD_setField_hash (a : Record) (v : BitVec 40) (k : Nat) :
    (setField a .hash v).getLsbD k = if k < 40 then v.getLsbD k else a.getLsbD k := by
  have low := getLsbD_setField_lowBits .hash 40 rfl a v k
  simpa [Field.start] using low

/-- Settles O25: WRHASH completes a write of REC with CK in the Hash field. -/
theorem wrhashWritesHashField : Obligations.WrhashWritesHashField :=
  ⟨rfl, noOtherWord (by decide) (by decide), fun s =>
    ⟨s.writeHashBody.complete, rfl, getLsbD_setField_hash s.recReg s.ck, s.setRec_complete _⟩⟩

end Sys2Proof.Machine
end

section
/-! PROOFS. The bit-stream permuter (43_permute.md R210 to R214): the printed destination table is a right inverse of
the printed source table, and PERMUTE's next state. -/

namespace Sys2Proof.Machine

/-! ## The printed tables (R212, R214) -/

/-- Destinations beyond the table are copied unchanged. -/
theorem specSource_of_le {d : Nat} (h : 105 ≤ d) : specSource d = d :=
  List.getD_eq_default specSourceTable d h

theorem specDestination_of_le {k : Nat} (h : 105 ≤ k) : specDestination k = k :=
  List.getD_eq_default specDestinationTable k h

/-- The two printed tables, entry by entry. -/
theorem specDestination_table_inverse :
    ∀ k < 105, specDestination k < 105 ∧ specSource (specDestination k) = k := by decide +kernel

theorem specDestination_lt {k : Nat} (h : k < 125) : specDestination k < 125 := by
  obtain table | beyond := Nat.lt_or_ge k 105
  · exact (specDestination_table_inverse k table).1.trans (by decide)
  · rwa [specDestination_of_le beyond]

@[simp] theorem specSource_specDestination (k : Nat) : specSource (specDestination k) = k := by
  obtain table | beyond := Nat.lt_or_ge k 105
  · exact (specDestination_table_inverse k table).2
  · rw [specDestination_of_le beyond, specSource_of_le beyond]

/-! ## PERMUTE (R213) -/

theorem exec_permute (s : State) : exec .permute s = .next s.permuteBody.complete := rfl

/-- A cell of the permuted record, by the table the spec prints. -/
theorem getLsbD_permuteRecord_specSource (r : Record) {d : Nat} (h : d < 125) :
    (permuteRecord r).getLsbD d = r.getLsbD (specSource d) := by
  rw [getLsbD_permuteRecord, decide_eq_true h, Bool.true_and, src_eq_specSource]

/-- A cell of the record is found at its destination. -/
theorem getLsbD_permuteRecord_specDestination (r : Record) {k : Nat} (h : k < 125) :
    (permuteRecord r).getLsbD (specDestination k) = r.getLsbD k := by
  rw [getLsbD_permuteRecord_specSource r (specDestination_lt h), specSource_specDestination]

/-- Settles O26: PERMUTE completes a write of PREC with the permuted record, whose sources are the printed table's. -/
theorem permuteFollowsSourceTable : Obligations.PermuteFollowsSourceTable :=
  ⟨rfl, noOtherWord (by decide) (by decide), fun s =>
    ⟨s.permuteBody.complete, exec_permute s, fun _ hd => getLsbD_permuteRecord_specSource s.recReg hd,
      s.setPrec_complete (permuteRecord s.recReg)⟩⟩

/-- Settles O27: the destination table is the source table's inverse, so each cell of REC is at its destination. -/
theorem permuteFollowsDestinationTable : Obligations.PermuteFollowsDestinationTable := fun s =>
  ⟨s.permuteBody.complete, exec_permute s, fun k hk =>
    ⟨specDestination_lt hk, specSource_specDestination k, getLsbD_permuteRecord_specDestination s.recReg hk⟩⟩

end Sys2Proof.Machine
end

section
/-! PROOFS. The base-32 encoder (44_encode.md R230 to R235): the position of every group's slot, SERIAL after all of
ENCODE's writes, and the characters it then holds. -/

namespace Sys2Proof.Machine

/-! ## Positions (R231, R233) -/

theorem Config.slotMap_injective (cfg : Config) : Function.Injective fun i : Fin 25 => cfg.slotMap[i] := by
  obtain ⟨-, -, -, distinct, -, -⟩ := cfg.wellFormed
  intro i j same
  exact Fin.ext ((distinct.getElem_inj_iff (hi := by simp) (hj := by simp)).mp same)

/-- Every slot is some group's: SLOT_MAP permutes 0..24. -/
theorem Config.slotMap_surjective (cfg : Config) : Function.Surjective fun i : Fin 25 => cfg.slotMap[i] :=
  Finite.surjective_of_injective (Config.slotMap_injective cfg)

/-- The dashes and the slots take up all 29 positions. -/
theorem exists_slotPosition_eq (q : Fin 29) (other : q ∉ dashPositions) : ∃ slot, slotPosition slot = q := by
  revert q; decide

theorem mem_dashPositions_iff (q : Fin 29) : q ∈ dashPositions ↔ q.val ∈ [5, 11, 17, 23] := by
  revert q; decide

/-! ## SERIAL after the writes (R232, R234) -/

theorem writeDashes_getElem_dash (serial : Vector Byte 29) {q : Fin 29} (h : q ∈ dashPositions) :
    (writeDashes serial)[q] = dash := by
  simp only [dashPositions, List.mem_cons, List.not_mem_nil, or_false] at h
  rcases h with rfl | rfl | rfl | rfl <;> simp [writeDashes, dashPositions]

section
variable (cfg : Config) (p : Record)

/-- Writing groups leaves a position alone that is the place of none of them. -/
theorem foldl_writeSymbol_getElem_other {q : Fin 29} {groups : List (Fin 25)}
    (other : ∀ i ∈ groups, slotPosition cfg.slotMap[i] ≠ q) (out : Vector Byte 29) :
    (groups.foldl (writeSymbol cfg p) out)[q] = out[q] := by
  induction groups generalizing out with
  | nil => rfl
  | cons j rest ih =>
    obtain ⟨head, tail⟩ := List.forall_mem_cons.mp other
    rw [List.foldl_cons, ih tail, writeSymbol_getElem, if_neg head]

/-- Writing groups leaves every written group's symbol at its place: no other group is written there. -/
theorem foldl_writeSymbol_getElem_mem {i : Fin 25} {groups : List (Fin 25)} (written : i ∈ groups)
    (out : Vector Byte 29) :
    (groups.foldl (writeSymbol cfg p) out)[slotPosition cfg.slotMap[i]] = symbolOf cfg (group p i) := by
  induction groups generalizing out with
  | nil => cases written
  | cons j rest ih =>
    rw [List.foldl_cons]
    by_cases again : i ∈ rest
    · exact ih again _
    · obtain rfl : i = j := (List.mem_cons.mp written).resolve_right again
      have other : ∀ k ∈ rest, slotPosition cfg.slotMap[k] ≠ slotPosition cfg.slotMap[i] := by
        intro k hk same
        have : k = i := Config.slotMap_injective cfg (slotPosition_injective _ _ same)
        exact again (this ▸ hk)
      rw [foldl_writeSymbol_getElem_other cfg p other, writeSymbol_getElem, if_pos rfl]

theorem encodeSerial_getElem_dash (serial : Vector Byte 29) {q : Fin 29} (h : q ∈ dashPositions) :
    (encodeSerial cfg p serial)[q] = dash := by
  have other : ∀ i ∈ List.finRange 25, slotPosition cfg.slotMap[i] ≠ q := by
    rintro i - rfl
    exact slotPosition_not_dash _ h
  rw [encodeSerial, foldl_writeSymbol_getElem_other cfg p other, writeDashes_getElem_dash serial h]

theorem encodeSerial_getElem_slotPosition (serial : Vector Byte 29) (i : Fin 25) :
    (encodeSerial cfg p serial)[slotPosition cfg.slotMap[i]] = symbolOf cfg (group p i) :=
  foldl_writeSymbol_getElem_mem cfg p (List.mem_finRange i) (writeDashes serial)

end

theorem toNat_group (p : Record) (i : Fin 25) : (group p i).toNat = p.toNat / 2 ^ (5 * i.val) % 32 := by
  rw [group, getf, BitVec.extractLsb'_toNat, Nat.shiftRight_eq_div_pow]

/-- Whatever SERIAL held before, it holds the encoding of the record. -/
theorem encodesRecord_encodeSerial (cfg : Config) (p : Record) (serial : Vector Byte 29) :
    EncodesRecord cfg p (encodeSerial cfg p serial) := by
  refine ⟨fun q hq => encodeSerial_getElem_dash cfg p serial ((mem_dashPositions_iff q).mpr hq), ?_⟩
  intro i v q hv hq
  obtain rfl := Fin.ext (b := slotPosition _) hq
  obtain rfl : v = (group p i).toFin := Fin.ext (hv.trans (toNat_group p i).symm)
  exact encodeSerial_getElem_slotPosition cfg p serial i

/-! ## The characters (R235) -/

theorem alphabet_getElem_mem_symbolSet (cfg : Config) (v : Fin 32) : cfg.alphabet[v] ∈ symbolSet := by
  obtain ⟨-, symbols, -⟩ := cfg.wellFormed
  exact symbols (Vector.mem_toList_iff.mpr (Vector.getElem_mem v.isLt))

/-- The encoding of a record has the form of a serial: a position without a dash is the place of some group. -/
theorem EncodesRecord.serialShape {cfg : Config} {p : Record} {serial : Vector Byte 29}
    (h : EncodesRecord cfg p serial) : SerialShape serial := by
  obtain ⟨dashes, symbols⟩ := h
  intro q
  split
  case isTrue hq => exact dashes q hq
  case isFalse hq =>
    obtain ⟨slot, rfl⟩ := exists_slotPosition_eq q (mt (mem_dashPositions_iff q).mp hq)
    obtain ⟨i, rfl⟩ := Config.slotMap_surjective cfg slot
    rw [symbols i (group p i).toFin _ (toNat_group p i) rfl]
    exact alphabet_getElem_mem_symbolSet cfg _

/-! ## ENCODE -/

theorem exec_encode (s : State) : exec .encode s = .next s.encodeBody.complete := rfl

/-- Settles O29: ENCODE completes a write of SERIAL with the encoding of PREC. -/
theorem encodeWritesSerial : Obligations.EncodeWritesSerial :=
  ⟨rfl, noOtherWord (by decide) (by decide), fun s =>
    ⟨s.encodeBody.complete, exec_encode s, encodesRecord_encodeSerial s.cfg s.precReg s.serial,
      s.setSerial_complete (encodeSerial s.cfg s.precReg s.serial) true⟩⟩

/-- Settles O30: SERIAL holds the encoding of PREC, and every encoding has the form of a serial. -/
theorem encodedSerialHasShape : Obligations.EncodedSerialHasShape := fun s =>
  ⟨s.encodeBody.complete, exec_encode s, (encodesRecord_encodeSerial s.cfg s.precReg s.serial).serialShape⟩

end Sys2Proof.Machine
end

section
/-! PROOFS. The orchestrator (45_generate.md R250 to R254): GENERATE's next state on valid and on failing operands, the
pipeline as five commands, and what the serial is a function of. -/

namespace Sys2Proof.Machine

/-! ## GENERATE behind its argument check (R250, R252) -/

theorem exec_generate_of_argsValid {s : State} (h : ArgsValid s) :
    exec .generate s = .next s.pipelineBody.complete := by
  show execGenerateWith (digest160 s.cfg.digest) s = _
  rw [execGenerateWith, checkArgs_ok s h]
  rfl

theorem exec_generate_of_argsFail {s : State} {code : BitVec 4} (h : ArgsFail s code) :
    exec .generate s =
      .next { s with serial := Vector.replicate 29 0x00#8, serialValid := false,
                     ok := false, err := true, sticky := true, errCode := code } := by
  obtain ⟨e, failed, rfl⟩ := checkArgs_error s code h
  show execGenerateWith (digest160 s.cfg.digest) s = _
  rw [execGenerateWith, failed]
  rfl

/-! ## What the pipeline leaves (R250) -/

/-- REC after the pipeline: the packed record, whose Hash field holds CK. -/
theorem getLsbD_pipelineBody_recReg (s : State) (k : Nat) :
    s.pipelineBody.recReg.getLsbD k = if k < 40 then s.pipelineBody.ck.getLsbD k else packedCell s k := by
  rw [State.pipelineBody_recReg, getLsbD_setField_hash, getLsbD_packedRecord]

@[simp] theorem State.pipelineBody_cfg (s : State) : s.pipelineBody.cfg = s.cfg :=
  (Wrote.of_pipeline (digest160 s.cfg.digest) s).cfg

@[simp] theorem secretBytes_pipelineBody (s : State) : secretBytes s.pipelineBody = secretBytes s := by
  rw [State.pipelineBody_frame]
  rfl

/-- The digest message reads the record's cells from 40 on, the secret, CK_PAD and HASH_SEED, and nothing else
(42_checksum.md R184, R185). -/
theorem digestMessage_congr {s s' : State} (cells : ∀ k, 40 ≤ k → s.recReg.getLsbD k = s'.recReg.getLsbD k)
    (secret : secretBytes s = secretBytes s') (pad : s.cfg.ckPad = s'.cfg.ckPad)
    (seed : s.cfg.hashSeed = s'.cfg.hashSeed) : digestMessage s = digestMessage s' := by
  have window : windowByte s.cfg s.recReg = windowByte s'.cfg s'.recReg := by
    funext i
    apply BitVec.eq_of_getLsbD_eq
    intro j hj
    simp only [windowByte, BitVec.getLsbD_extractLsb', getLsbD_windowCells, pad, cells (40 + 8 * i + j) (by omega)]
  rw [digestMessage, digestMessage, window, secret, seed]

/-- WRHASH writes cells CHECKSUM does not read: DG is the digest of the record GENERATE leaves, too. -/
theorem State.pipelineBody_dg_eq_digest (s : State) :
    s.pipelineBody.dg = digest160 s.cfg.digest (specMessage s.pipelineBody) := by
  have cells : ∀ k, 40 ≤ k → (s.setRec (packedRecord s)).recReg.getLsbD k = s.pipelineBody.recReg.getLsbD k := by
    intro k hk
    rw [getLsbD_pipelineBody_recReg, if_neg (Nat.not_lt.mpr hk), State.setRec_recReg, getLsbD_packedRecord]
  have message : digestMessage (s.setRec (packedRecord s)) = digestMessage s.pipelineBody :=
    digestMessage_congr cells (by simp) (by simp) (by simp)
  rw [State.pipelineBody_dg, message, digestMessage_eq_specMessage]

theorem encodesRecord_pipelineBody (s : State) :
    EncodesRecord s.cfg s.pipelineBody.precReg s.pipelineBody.serial := by
  rw [State.pipelineBody_serial]
  exact encodesRecord_encodeSerial s.cfg _ s.serial

/-- The frame of a completed pipeline: REC, PREC, CK, DG, SERIAL and STATUS. -/
theorem State.pipelineBody_complete (s : State) :
    s.pipelineBody.complete = { s with
      recReg := s.pipelineBody.recReg, precReg := s.pipelineBody.precReg, ck := s.pipelineBody.ck
      dg := s.pipelineBody.dg, serial := s.pipelineBody.serial, serialValid := true
      ok := true, err := false, errCode := 0#4 } := by
  have frame := s.pipelineBody_frame
  generalize s.pipelineBody = u at frame ⊢
  rw [frame]
  rfl

/-- Settles O33: on valid operands GENERATE completes the pipeline, whose registers are those of its steps; on failing
ones it clears the serial and reports. -/
theorem generateBuildsSerial : Obligations.GenerateBuildsSerial := by
  refine ⟨rfl, noOtherWord (by decide) (by decide), fun s => ⟨fun valid => ?_, fun _ failing =>
    exec_generate_of_argsFail failing⟩⟩
  refine ⟨s.pipelineBody.complete, exec_generate_of_argsValid valid, ?record, ?digest, ?checksum, ?permuted, ?serial,
    s.pipelineBody_complete⟩
  case record => exact getLsbD_pipelineBody_recReg s
  case digest => exact s.pipelineBody_dg_eq_digest
  case checksum => exact s.pipelineBody_ck
  case permuted =>
    intro d hd
    rw [State.complete_precReg, State.pipelineBody_precReg]
    exact getLsbD_permuteRecord_specSource _ hd
  case serial => exact encodesRecord_pipelineBody s

/-! ## The pipeline as five commands (R251) -/

@[simp] theorem andThen_next (s : State) (i : Instr) : andThen (.next s) i = exec i s := rfl

/-! A command that completes reads no STATUS bit (10_state.md R44) and overwrites those a completion before it wrote:
the completions between the five commands leave no trace. -/

theorem exec_checksum_complete (s : State) : exec .checksum s.complete = .next s.checksumBody.complete := rfl

theorem exec_wrhash_complete (s : State) : exec .wrhash s.complete = .next s.writeHashBody.complete := rfl

theorem exec_permute_complete (s : State) : exec .permute s.complete = .next s.permuteBody.complete := rfl

theorem exec_encode_complete (s : State) : exec .encode s.complete = .next s.encodeBody.complete := rfl

/-- Settles O34: each command runs its body of the pipeline on the state the one before it completed. -/
theorem generateIsPipeline : Obligations.GenerateIsPipeline := by
  intro s valid
  have packed : exec .pack s = .next s.packBody.complete := endCommand_of_argsValid valid s.packBody
  refine ⟨_, exec_generate_of_argsValid valid, ?_⟩
  rw [packed, andThen_next, exec_checksum_complete, andThen_next, exec_wrhash_complete, andThen_next,
    exec_permute_complete, andThen_next, exec_encode_complete]
  rfl

/-! ## What the serial is a function of (R254) -/

/-- The packed record holds the count from version 6 on and the flags from version 8 on. -/
theorem packedRecord_congr {s s' : State} (version : s.argVersion = s'.argVersion)
    (count : 6 ≤ versionOf s → s.argCount = s'.argCount) (flags : 8 ≤ versionOf s → flagsOf s = flagsOf s')
    (unit : unitIdOf s = unitIdOf s') (batch : batchIdOf s = batchIdOf s') : packedRecord s = packedRecord s' := by
  have always : packAlways s = packAlways s' := by rw [packAlways, packAlways, version, unit, batch]
  have same : versionOf s = versionOf s' := congrArg BitVec.toInt version
  obtain below6 | ⟨from6, below8⟩ | from8 :
      versionOf s < 6 ∨ (6 ≤ versionOf s ∧ versionOf s < 8) ∨ 8 ≤ versionOf s := by omega
  · rw [packedRecord_below_six below6, packedRecord_below_six (same ▸ below6), always]
  · rw [packedRecord_below_eight from6 below8, packedRecord_below_eight (same ▸ from6) (same ▸ below8), always,
      packCount, packCount, count from6]
  · rw [packedRecord_from_eight from8, packedRecord_from_eight (same ▸ from8), always, packCount, packCount,
      count (by omega), packFlags, packFlags, flags from8]

/-- The encoding of a record is fixed by ALPHABET and SLOT_MAP: no position is left free. -/
theorem EncodesRecord.unique {cfg cfg' : Config} {p : Record} {serial serial' : Vector Byte 29}
    (alphabet : cfg.alphabet = cfg'.alphabet) (slotMap : cfg.slotMap = cfg'.slotMap)
    (h : EncodesRecord cfg p serial) (h' : EncodesRecord cfg' p serial') : serial = serial' := by
  obtain ⟨dashes, symbols⟩ := h
  obtain ⟨dashes', symbols'⟩ := h'
  rw [← alphabet, ← slotMap] at symbols'
  have same : ∀ q : Fin 29, serial[q] = serial'[q] := by
    intro q
    by_cases hq : q ∈ dashPositions
    · have hq := (mem_dashPositions_iff q).mp hq
      rw [dashes q hq, dashes' q hq]
    · obtain ⟨slot, rfl⟩ := exists_slotPosition_eq q hq
      obtain ⟨i, rfl⟩ := Config.slotMap_surjective cfg slot
      have value := toNat_group p i
      rw [symbols i (group p i).toFin _ value rfl, symbols' i (group p i).toFin _ value rfl]
  exact Vector.ext fun q hq => same ⟨q, hq⟩

/-- Settles O35: the operands fix the packed record, it and the configuration fix the digest, and these fix the
permuted record and its encoding. -/
theorem serialIsFunctionOfOperands : Obligations.SerialIsFunctionOfOperands := by
  intro s s' valid valid' secret version count flags unit batch digest seed pad alphabet slotMap
  refine ⟨_, _, exec_generate_of_argsValid valid, exec_generate_of_argsValid valid', ?_⟩
  have packed : packedRecord s = packedRecord s' := packedRecord_congr version count flags unit batch
  have message : digestMessage (s.setRec (packedRecord s)) = digestMessage (s'.setRec (packedRecord s')) :=
    digestMessage_congr (by simp [packed]) secret pad seed
  have dg : s.pipelineBody.dg = s'.pipelineBody.dg := by
    rw [State.pipelineBody_dg, State.pipelineBody_dg, digest, message]
  have prec : s.pipelineBody.precReg = s'.pipelineBody.precReg := by
    simp only [State.pipelineBody_precReg, State.pipelineBody_recReg, State.pipelineBody_ck, packed, dg]
  exact (prec ▸ encodesRecord_pipelineBody s).unique alphabet slotMap (encodesRecord_pipelineBody s')

end Sys2Proof.Machine
end

section
/-! PROOFS. Errors (60_exceptions.md R270 to R277): how a word written to CMD ends, what its error and its completion
write, and which accesses the port rejects. -/

namespace Sys2Proof.Machine

/-! ## How a word written to CMD ends (R271, R272) -/

/-- The word of a decoded command is the command's own. -/
theorem encode_eq_of_decode_eq_ok {c : Word} {i : Instr} (h : decode c = .ok i) : encode i = c := by
  obtain ⟨hrsv, hop, hstart, hwidth⟩ := decode_eq_ok_iff.mp h
  rw [encode, hop, hstart, hwidth, formatWord_fields hrsv]

/-- Everything a word written to CMD can have done: its command completed, or an error was reported, and GENERATE's word
cleared the serial before its report. -/
theorem runCommand_next {c : Word} {s t : State} (h : runCommand c s = .next t) :
    (∃ i u, encode i = c ∧ Wrote i (s.setLastCmd c) u ∧ t = u.complete) ∨
    (∃ e, t = (s.setLastCmd c).raiseCmdError e ∨
      (encode .generate = c ∧ t = (s.setLastCmd c).clearSerial.raiseCmdError e)) := by
  obtain ⟨i, hdecode, hrun⟩ | ⟨e, -, hrun⟩ := runCommand_cases c s
  · have word := encode_eq_of_decode_eq_ok hdecode
    rw [hrun] at h
    obtain ⟨u, ht, wrote⟩ | ⟨e, ht | ⟨rfl, ht⟩⟩ := exec_next h
    · exact .inl ⟨i, u, word, wrote, ht⟩
    · exact .inr ⟨e, .inl ht⟩
    · exact .inr ⟨e, .inr ⟨word, ht⟩⟩
  · exact .inr ⟨e, .inl (Host.Outcome.next.inj (h.symm.trans hrun))⟩

/-- The codes of the errors (R270): 0 is no error, and 7 to 15 are never produced. -/
theorem CmdError.code_bounds (e : CmdError) : 1 ≤ e.code.toNat ∧ e.code.toNat ≤ 6 := by
  cases e <;> decide

/-- Settles O37: a completion has ERR 0, and each of the two reports of an error is the frame itself. -/
theorem errorsArePrecise : Obligations.ErrorsArePrecise := by
  intro c s t h herr
  obtain ⟨i, u, -, -, rfl⟩ | ⟨e, rfl | ⟨word, rfl⟩⟩ := runCommand_next h
  · exact absurd herr Bool.false_ne_true
  · obtain ⟨lower, upper⟩ := CmdError.code_bounds e
    exact ⟨rfl, lower, upper, .inl ⟨rfl, rfl⟩⟩
  · obtain ⟨lower, upper⟩ := CmdError.code_bounds e
    exact ⟨rfl, lower, upper, .inr ⟨word.symm, rfl, rfl⟩⟩

/-- Settles O38: the completed command keeps STICKY, and SERIAL_VALID but for ENCODE and GENERATE; no report of an error
has ERR 0. -/
theorem completionsWriteStatus : Obligations.CompletionsWriteStatus := by
  intro c s t h herr
  obtain ⟨i, u, word, wrote, rfl⟩ | ⟨e, rfl | ⟨-, rfl⟩⟩ := runCommand_next h
  · obtain ⟨-, -, sticky, -⟩ := wrote.status
    refine ⟨rfl, rfl, sticky, ?_⟩
    obtain ⟨-, same⟩ | ⟨rfl | rfl, valid, -⟩ := wrote.serial
    · exact .inl same
    · exact .inr ⟨.inl word.symm, valid⟩
    · exact .inr ⟨.inr word.symm, valid⟩
  · exact absurd herr.symm Bool.false_ne_true
  · exact absurd herr.symm Bool.false_ne_true

/-! ## No error is fatal (R274) -/

/-- No command takes an access off the port or puts one there. -/
theorem runCommand_pending {c : Word} {s t : State} (h : runCommand c s = .next t) : t.pending = s.pending := by
  obtain ⟨i, u, -, wrote, rfl⟩ | ⟨e, rfl | ⟨-, rfl⟩⟩ := runCommand_next h
  · obtain ⟨-, pending, -⟩ := wrote.port
    exact pending
  · rfl
  · rfl

/-- After any command exactly one of OK and ERR is 1 (10_state.md R36). -/
theorem runCommand_ok_eq_not_err {c : Word} {s t : State} (h : runCommand c s = .next t) : t.ok = !t.err := by
  obtain ⟨i, u, -, -, rfl⟩ | ⟨e, rfl | ⟨-, rfl⟩⟩ := runCommand_next h
  all_goals rfl

/-- Settles O39: the step runs the word, which answers a next state. -/
theorem noCommandIsFatal : Obligations.NoCommandIsFatal := by
  intro s c rest hp
  obtain ⟨t, hrun⟩ := runCommand_answers c s.accept
  have pending : s.accept.pending = rest := by rw [State.accept_of_pending hp]
  exact ⟨t, (step_command hp).trans hrun, (runCommand_pending hrun).trans pending, runCommand_ok_eq_not_err hrun⟩

/-! ## The accesses the port rejects (R276, R277) -/

/-- Among the multiples of 4 below 128, the offsets R64 lists are all that have no register. -/
theorem regAt_eq_none_iff {off : BitVec 7} (aligned : off.toNat % 4 = 0) :
    regAt off = none ↔ off.toNat ∈ unmappedOffsets := by
  have all : ∀ o : BitVec 7, o.toNat % 4 = 0 → (regAt o = none ↔ o.toNat ∈ unmappedOffsets) := by decide
  exact all off aligned

theorem accessReg_eq_none_iff {off : BitVec 7} {size : Nat} :
    accessReg off size = none ↔ size ≠ 4 ∨ off.toNat % 4 ≠ 0 ∨ off.toNat ∈ unmappedOffsets := by
  by_cases form : size ≠ 4 ∨ off.toNat % 4 ≠ 0
  · rw [accessReg, if_pos form, ← or_assoc]
    exact iff_of_true rfl (.inl form)
  · obtain ⟨-, aligned⟩ := not_or.mp form
    rw [accessReg, if_neg form, regAt_eq_none_iff (not_not.mp aligned), ← or_assoc, or_iff_right form]

/-- An access the port does not reject is one of 4 bytes at some register's offset. -/
theorem exists_offsetOf_of_legal {off : BitVec 7} {size : Nat}
    (legal : ¬ (size ≠ 4 ∨ off.toNat % 4 ≠ 0 ∨ off.toNat ∈ unmappedOffsets)) :
    ∃ r, size = 4 ∧ off = offsetOf r := by
  obtain ⟨r, hr⟩ := Option.ne_none_iff_exists'.mp (accessReg_eq_none_iff.not.mpr legal)
  exact ⟨r, accessReg_eq_some.mp hr⟩

theorem step_read_rejected {s : State} {off : BitVec 7} {size : Nat} {rest : List HostEvent}
    (hp : s.pending = .read off size :: rest) (bad : accessReg off size = none) :
    step s = .fault (.busError off) := by
  simp only [step_event hp, perform, performBy, bad]

theorem step_write_rejected {s : State} {off : BitVec 7} {size : Nat} {v : Word} {rest : List HostEvent}
    (hp : s.pending = .write off size v :: rest) (bad : accessReg off size = none) :
    step s = .fault (.busError off) := by
  simp only [step_event hp, perform, performBy, bad]

theorem digest_mem_readOnlyOffsets (n : Fin 5) : (offsetOf (.digest n)).toNat ∈ readOnlyOffsets := by
  revert n; decide

theorem serial_mem_readOnlyOffsets (n : Fin 8) : (offsetOf (.serial n)).toNat ∈ readOnlyOffsets := by
  revert n; decide

/-- A read-only register rejects every write. -/
theorem writeReg_readOnly {r : HostReg} (readOnly : (offsetOf r).toNat ∈ readOnlyOffsets) (v : Word) (s : State) :
    writeReg r v s = .fault (.busError (offsetOf r)) := by
  cases r with
  | cmd | status | argCount | argVersion | argAddons | unitSeed | batchSeed | dinLo | dinHi =>
    exact absurd readOnly (by decide)
  | _ => rfl

/-- Every other register takes every write, and a write to CMD does so whatever command it triggers (R277). -/
theorem writeReg_answers {r : HostReg} (writable : (offsetOf r).toNat ∉ readOnlyOffsets) (v : Word) (s : State) :
    ∃ t, writeReg r v s = .next t := by
  cases r with
  | cmd => exact runCommand_answers v s
  | status | argCount | argVersion | argAddons | unitSeed | batchSeed | dinLo | dinHi => exact ⟨_, rfl⟩
  | id | doutLo | doutHi | ckLo | ckHi | secretLen | config => exact absurd (by decide) writable
  | digest n => exact absurd (digest_mem_readOnlyOffsets n) writable
  | serial n => exact absurd (serial_mem_readOnlyOffsets n) writable

/-- Settles O42: an access that is not rejected reaches a register, which answers a read, and a write unless it is
read-only. -/
theorem busErrorExactlyOnBadAccess : Obligations.BusErrorExactlyOnBadAccess := by
  intro s off size v rest bad
  refine ⟨fun hp => ⟨fun hbad => ?readBad, fun hgood => ?readGood⟩,
    fun hp => ⟨fun hbad => ?writeBad, fun hgood => ?writeGood⟩⟩
  case readBad => exact step_read_rejected hp (accessReg_eq_none_iff.mpr hbad)
  case readGood =>
    obtain ⟨r, rfl, rfl⟩ := exists_offsetOf_of_legal hgood
    exact ⟨_, step_read hp⟩
  case writeBad =>
    by_cases legal : bad
    · exact step_write_rejected hp (accessReg_eq_none_iff.mpr legal)
    · obtain ⟨r, rfl, rfl⟩ := exists_offsetOf_of_legal legal
      exact (step_write hp).trans (writeReg_readOnly (hbad.resolve_left legal) v _)
  case writeGood =>
    obtain ⟨legal, writable⟩ := not_or.mp hgood
    obtain ⟨r, rfl, rfl⟩ := exists_offsetOf_of_legal legal
    rw [step_write hp]
    exact writeReg_answers writable v _

end Sys2Proof.Machine
end

section
/-! PROOFS. Reset (70_reset_and_hazards.md R300, R301): what the registers with cells, bytes or bits read after it, under
every configuration. -/

namespace Sys2Proof.Machine

/-! ## The registers right after reset (R301) -/

@[simp] theorem Memory.read_nil (a : Nat) : Memory.read [] a = Memory.unlisted := rfl

theorem getLsbD_recReg_resetWith (cfg : Config) (k : Nat) : (State.resetWith cfg).recReg.getLsbD k = false :=
  BitVec.getLsbD_zero

theorem getLsbD_precReg_resetWith (cfg : Config) (k : Nat) : (State.resetWith cfg).precReg.getLsbD k = false :=
  BitVec.getLsbD_zero

theorem getElem_dg_resetWith (cfg : Config) (j : Fin 20) : (State.resetWith cfg).dg[j] = 0x00#8 :=
  Vector.getElem_replicate j.isLt

theorem getElem_serial_resetWith (cfg : Config) (q : Fin 29) : (State.resetWith cfg).serial[q] = 0x00#8 :=
  Vector.getElem_replicate q.isLt

/-- No byte of the store is listed after reset, so every index reads as an unlisted one (log entry 12). -/
theorem read_secret_resetWith (cfg : Config) (a : Nat) : Memory.read (State.resetWith cfg).secret a = 0x00#8 :=
  Memory.read_nil a

/-- OK, ERR, STICKY, SERIAL_VALID and ERRCODE are all clear after reset, so their sum is 0 (10_state.md R36). -/
theorem readReg_status_resetWith (cfg : Config) : readReg .status (State.resetWith cfg) = 0x00000000#32 :=
  eq_ofNat_of_toNat_eq (toNat_statusWord (State.resetWith cfg))

/-- Settles O52: the cells, bytes and STATUS by the lemmas above; every other register is a field that `State.resetWith`
sets. -/
theorem resetValues : Obligations.ResetValues := by
  refine ⟨?recCells, ?precCells, rfl, ?dgBytes, ?serialBytes, rfl, rfl, ?secretBytes, rfl, rfl, rfl, rfl, rfl, rfl, rfl,
    ?statusRead, rfl⟩
  case recCells => exact getLsbD_recReg_resetWith _
  case precCells => exact getLsbD_precReg_resetWith _
  case dgBytes => exact getElem_dg_resetWith _
  case serialBytes => exact getElem_serial_resetWith _
  case secretBytes => exact read_secret_resetWith _
  case statusRead => exact readReg_status_resetWith _

end Sys2Proof.Machine
end

section
/-! PROOFS. Decoding against encoding (30_encoding.md R91 to R102), the assembler's lines (R99), and a write to CMD
(20_memory.md R70). -/

namespace Sys2Proof.Machine

/-! ## Decode and encode agree (R91 to R97) -/

theorem decode_encode (i : Instr) : decode (encode i) = .ok i :=
  decode_eq_ok_iff.mpr ⟨rsvField_formatWord _ _ _, (opField_formatWord _ _ _).symm, (startField_formatWord _ _ _).symm,
    (widthField_formatWord _ _ _).symm⟩

/-- Settles O3: the fields of a command's word are the command's. -/
theorem decodeInvertsEncode : Obligations.DecodeInvertsEncode := decode_encode

/-- Settles O4: the four fields of a word are all of its bits. -/
theorem encodeInvertsDecode : Obligations.EncodeInvertsDecode := fun _ _ h => encode_eq_of_decode_eq_ok h

theorem decode_error_of_reserved {c : Word} (h : 0x0F ≤ c.toNat % 32) : decode c = .error .illegalCommand := by
  refine decode_eq_error fun i hi => ?_
  obtain ⟨-, hopcode, -⟩ := decode_eq_ok_iff.mp hi
  have := opcode_lt i
  rw [hopcode, toNat_opField] at this
  omega

theorem decode_error_of_rsv {c : Word} (h : c.toNat / 2 ^ 18 ≠ 0) : decode c = .error .illegalCommand := by
  refine decode_eq_error fun i hi => h ?_
  obtain ⟨hrsv, -⟩ := decode_eq_ok_iff.mp hi
  exact (rsvField_eq_zero_iff c).mp hrsv

/-- Settles O2: each legal word is its command's word; the four others hold a reserved operation code, an unused START,
and twice a bit of RSV. -/
theorem specWordsDecode : Obligations.SpecWordsDecode := by
  refine ⟨decode_encode .nop, decode_encode .clear, decode_encode (.get 0#7 40#6), decode_encode (.set 45#7 16#6),
    decode_encode (.getp 3#7 1#6), decode_encode (.setp 0#7 5#6), decode_encode .validate, decode_encode .pack,
    decode_encode .checksum, decode_encode .permute, decode_encode .encode, decode_encode .generate,
    decode_encode .skpush, ?reserved, ?unusedStart, ?rsvLow, ?rsvHigh⟩
  case reserved => exact decode_error_of_reserved (by decide)
  case unusedStart => rfl
  case rsvLow => exact decode_error_of_rsv (by decide)
  case rsvHigh => exact decode_error_of_rsv (by decide)

/-! ## The assembler (R99) -/

theorem plainCommand_eq_some_iff (m : String) (i : Instr) :
    plainCommand m = some i ↔
      (m, i) ∈ [("NOP", Instr.nop), ("CLEAR", .clear), ("VALIDATE", .validate), ("PACK", .pack),
        ("CHECKSUM", .checksum), ("WRHASH", .wrhash), ("PERMUTE", .permute), ("ENCODE", .encode),
        ("GENERATE", .generate), ("SKCLR", .skclr), ("SKPUSH", .skpush)] := by
  unfold plainCommand
  split <;> simp_all [eq_comm]

theorem fieldCommand_eq_some_iff (m : String) (start : BitVec 7) (width : BitVec 6) (i : Instr) :
    (fieldCommand m).map (fun command => command start width) = some i ↔
      (m, i) ∈ [("GET", Instr.get start width), ("SET", .set start width), ("GETP", .getp start width),
        ("SETP", .setp start width)] := by
  unfold fieldCommand
  split <;> simp_all [eq_comm]

theorem assemble_nil (m : String) : assemble m [] = plainCommand m := rfl

theorem assemble_pair_inside (m : String) {start width : Nat} (h : start + width ≤ 125 ∧ width ≤ 63) :
    assemble m [start, width] =
      (fieldCommand m).map fun command => command (BitVec.ofNat 7 start) (BitVec.ofNat 6 width) := if_pos h

theorem assemble_pair_outside (m : String) {start width : Nat} (h : ¬ (start + width ≤ 125 ∧ width ≤ 63)) :
    assemble m [start, width] = none := if_neg h

/-- No mnemonic takes one operand, or three and more. -/
theorem assemble_other_length (m : String) {operands : List Nat} (h0 : operands ≠ []) (h2 : operands.length ≠ 2) :
    assemble m operands = none := by
  match operands with
  | [] => exact absurd rfl h0
  | [_] => rfl
  | [_, _] => exact absurd rfl h2
  | _ :: _ :: _ :: _ => rfl

/-- Every line that assembles is a mnemonic alone, or a mnemonic with a pair of operands in range. -/
theorem assemble_eq_some_iff (m : String) (operands : List Nat) (i : Instr) :
    assemble m operands = some i ↔
      (operands = [] ∧ plainCommand m = some i) ∨
      (∃ start width : Nat, operands = [start, width] ∧ start + width ≤ 125 ∧ width ≤ 63 ∧
        (fieldCommand m).map (fun command => command (BitVec.ofNat 7 start) (BitVec.ofNat 6 width)) = some i) := by
  constructor
  · intro h
    by_cases h0 : operands = []
    · exact .inl ⟨h0, by rwa [h0, assemble_nil] at h⟩
    by_cases h2 : operands.length = 2
    · obtain ⟨start, width, rfl⟩ := List.length_eq_two.mp h2
      by_cases span : start + width ≤ 125 ∧ width ≤ 63
      · rw [assemble_pair_inside m span] at h
        exact .inr ⟨start, width, rfl, span.1, span.2, h⟩
      · rw [assemble_pair_outside m span] at h
        cases h
    · rw [assemble_other_length m h0 h2] at h
      cases h
  · rintro (⟨rfl, h⟩ | ⟨start, width, rfl, span, narrow, h⟩)
    · exact h
    · rw [assemble_pair_inside m ⟨span, narrow⟩, h]

theorem plainCommand_of_field {m : String} (h : m ∈ ["GET", "SET", "GETP", "SETP"]) : plainCommand m = none := by
  simp only [List.mem_cons, List.not_mem_nil, or_false] at h
  rcases h with rfl | rfl | rfl | rfl <;> rfl

theorem fieldCommand_of_plain {m : String}
    (h : m ∈ ["NOP", "CLEAR", "VALIDATE", "PACK", "CHECKSUM", "WRHASH", "PERMUTE", "ENCODE", "GENERATE", "SKCLR",
      "SKPUSH"]) : fieldCommand m = none := by
  simp only [List.mem_cons, List.not_mem_nil, or_false] at h
  rcases h with rfl | rfl | rfl | rfl | rfl | rfl | rfl | rfl | rfl | rfl | rfl <;> rfl

theorem assemble_field_of_length_ne {m : String} (h : m ∈ ["GET", "SET", "GETP", "SETP"]) {operands : List Nat}
    (h2 : operands.length ≠ 2) : assemble m operands = none := by
  by_cases h0 : operands = []
  · rw [h0, assemble_nil, plainCommand_of_field h]
  · exact assemble_other_length m h0 h2

theorem assemble_plain_of_ne_nil {m : String} (h : fieldCommand m = none) {operands : List Nat}
    (h0 : operands ≠ []) : assemble m operands = none := by
  refine Option.eq_none_iff_forall_ne_some.mpr fun i hi => ?_
  obtain ⟨hnil, -⟩ | ⟨start, width, -, -, -, hfield⟩ := (assemble_eq_some_iff m operands i).mp hi
  · exact h0 hnil
  · rw [h] at hfield
    cases hfield

theorem wellFormed_of_plainCommand {m : String} {i : Instr} (h : plainCommand m = some i) : i.WellFormed := by
  unfold plainCommand at h
  split at h
  all_goals cases h
  all_goals rfl

/-- A field command assembled from operands in range has its span in the record: neither operand is cut by its field. -/
theorem wellFormed_of_fieldCommand {m : String} {i : Instr} {start width : Nat} (span : start + width ≤ 125)
    (narrow : width ≤ 63)
    (h : (fieldCommand m).map (fun command => command (BitVec.ofNat 7 start) (BitVec.ofNat 6 width)) = some i) :
    i.WellFormed := by
  have inside : SpanInRecord (BitVec.ofNat 7 start) (BitVec.ofNat 6 width) := by
    rw [SpanInRecord, BitVec.toNat_ofNat, BitVec.toNat_ofNat]
    omega
  unfold fieldCommand at h
  split at h
  all_goals cases h
  all_goals exact decide_eq_true inside

/-- Settles O8: a line is read by its number of operands, then by its mnemonic. -/
theorem assemblerRefusesBadOperands : Obligations.AssemblerRefusesBadOperands := by
  refine ⟨fun m operands i => ?accepted, fun _ hm _ hlength => assemble_field_of_length_ne hm hlength,
    fun _ hm _ hne => assemble_plain_of_ne_nil (fieldCommand_of_plain hm) hne,
    fun m _ _ beyond => assemble_pair_outside m beyond, fun m operands i h => ?wellFormed⟩
  case accepted =>
    simp only [assemble_eq_some_iff, plainCommand_eq_some_iff, fieldCommand_eq_some_iff]
  case wellFormed =>
    obtain ⟨-, plain⟩ | ⟨_, _, -, span, narrow, field⟩ := (assemble_eq_some_iff m operands i).mp h
    · exact wellFormed_of_plainCommand plain
    · exact wellFormed_of_fieldCommand span narrow field

/-! ## A write to CMD (20_memory.md R70, R72) -/

/-- Settles O1: the access is taken off the port and its word runs, with ILLEGAL_COMMAND the decoder's one error. -/
theorem stepRunsDecodedCommand : Obligations.StepRunsDecodedCommand := by
  intro s c rest hp
  have run : step s = runCommand c { s with pending := rest, reply := none } := by
    rw [step_command hp, State.accept_of_pending hp]
  refine ⟨run, fun i hi => ?_, fun e he => ?_⟩
  · rw [run, runCommand_of_ok hi]
    rfl
  · have undecodable : ∀ i, decode c ≠ .ok i := fun i hi => by cases he.symm.trans hi
    rw [run]
    exact endsInError_of_undecodable undecodable _

end Sys2Proof.Machine
end

section
/-! PROOFS. What a command reads (10_state.md R29, R44): no STATUS bit and no SECRET byte from SECRET_LEN on. Two states
that differ in these alone go through every command, and every step, alike. -/

namespace Sys2Proof.Machine

/-! ## States that a command cannot tell apart -/

/-- The two states agree on everything a command reads: every register but STATUS and the SECRET store, and the secret. -/
structure SameInputs (s s' : State) : Prop where
  registers : s' = { s with
    secret := s'.secret, ok := s'.ok, err := s'.err, sticky := s'.sticky, serialValid := s'.serialValid,
    errCode := s'.errCode }
  secret : secretBytes s' = secretBytes s

/-- From states `s` and `s'` an effect leads to states `u` and `u'` that a command cannot tell apart either, and it does
not make STICKY, SERIAL_VALID or the SECRET store differ. -/
structure SameEffect (s s' u u' : State) : Prop extends SameInputs u u' where
  store : s'.secret = s.secret → u'.secret = u.secret
  sticky : s'.sticky = s.sticky → u'.sticky = u.sticky
  serialValid : s'.serialValid = s.serialValid → u'.serialValid = u.serialValid

theorem SameEffect.trans {s s' u u' v v' : State} (h : SameEffect s s' u u') (k : SameEffect u u' v v') :
    SameEffect s s' v v' :=
  ⟨k.toSameInputs, k.store ∘ h.store, k.sticky ∘ h.sticky, k.serialValid ∘ h.serialValid⟩

section

variable {s s' : State} (h : SameInputs s s')
include h

theorem SameInputs.same : SameEffect s s' s s' := ⟨h, id, id, id⟩

theorem SameInputs.setRec (r : Record) : SameEffect s s' (s.setRec r) (s'.setRec r) :=
  ⟨⟨congrArg (·.setRec r) h.registers, h.secret⟩, id, id, id⟩

theorem SameInputs.setPrec (r : Record) : SameEffect s s' (s.setPrec r) (s'.setPrec r) :=
  ⟨⟨congrArg (·.setPrec r) h.registers, h.secret⟩, id, id, id⟩

theorem SameInputs.setDout (v : BitVec 64) : SameEffect s s' (s.setDout v) (s'.setDout v) :=
  ⟨⟨congrArg (·.setDout v) h.registers, h.secret⟩, id, id, id⟩

theorem SameInputs.setChecksum (d : Vector Byte 20) (c : BitVec 40) :
    SameEffect s s' (s.setChecksum d c) (s'.setChecksum d c) :=
  ⟨⟨congrArg (·.setChecksum d c) h.registers, h.secret⟩, id, id, id⟩

theorem SameInputs.setSerial (b : Vector Byte 29) (v : Bool) :
    SameEffect s s' (s.setSerial b v) (s'.setSerial b v) :=
  ⟨⟨congrArg (·.setSerial b v) h.registers, h.secret⟩, id, id, fun _ => rfl⟩

theorem SameInputs.setSecret {m m' : Memory} {n : BitVec 8}
    (secret : secretBytes (s'.setSecret m' n) = secretBytes (s.setSecret m n)) (store : s'.secret = s.secret → m' = m) :
    SameEffect s s' (s.setSecret m n) (s'.setSecret m' n) :=
  ⟨⟨congrArg (·.setSecret m' n) h.registers, secret⟩, store, id, id⟩

theorem SameInputs.complete : SameEffect s s' s.complete s'.complete :=
  ⟨⟨congrArg (·.complete) h.registers, h.secret⟩, id, id, id⟩

theorem SameInputs.raiseCmdError (e : CmdError) : SameEffect s s' (s.raiseCmdError e) (s'.raiseCmdError e) :=
  ⟨⟨congrArg (·.raiseCmdError e) h.registers, h.secret⟩, id, fun _ => rfl, id⟩

end

/-! ## The commands' effects -/

/-- Two secrets of one length are equal exactly when their bytes are. -/
theorem secretBytes_eq_iff {s s' : State} (length : s'.secretLen = s.secretLen) :
    secretBytes s' = secretBytes s ↔
      ∀ a, a < s.secretLen.toNat → Memory.read s'.secret a = Memory.read s.secret a := by
  rw [secretBytes, secretBytes, length, List.map_inj_left]
  simp only [List.mem_range]

theorem toNat_add_one_le (n : BitVec 8) : (n + 1#8).toNat ≤ n.toNat + 1 := by
  rw [BitVec.toNat_add]
  exact Nat.mod_le _ _

section

variable {s s' : State} (h : SameInputs s s')
include h

theorem SameInputs.secretLen : s'.secretLen = s.secretLen := by rw [h.registers]

theorem SameInputs.readSecret {a : Nat} (ha : a < s.secretLen.toNat) :
    Memory.read s'.secret a = Memory.read s.secret a :=
  (secretBytes_eq_iff h.secretLen).mp h.secret a ha

theorem SameInputs.checkArgs : checkArgs s' = checkArgs s := by
  rw [h.registers]
  rfl

theorem SameInputs.digestMessage : digestMessage s' = digestMessage s :=
  digestMessage_congr (by rw [h.registers]; exact fun _ _ => rfl) h.secret (by rw [h.registers]) (by rw [h.registers])

theorem SameInputs.packBody : SameEffect s s' s.packBody s'.packBody := by
  have packed : packedRecord s' = packedRecord s := by
    rw [h.registers]
    exact packedRecord_congr rfl (fun _ => rfl) (fun _ => rfl) rfl rfl
  rw [State.packBody, State.packBody, packed]
  exact h.setRec _

theorem SameInputs.checksumBodyWith (D : Digest160) :
    SameEffect s s' (s.checksumBodyWith D) (s'.checksumBodyWith D) := by
  rw [State.checksumBodyWith, State.checksumBodyWith, h.digestMessage]
  exact h.setChecksum _ _

theorem SameInputs.writeHashBody : SameEffect s s' s.writeHashBody s'.writeHashBody := by
  have written : setField s'.recReg .hash s'.ck = setField s.recReg .hash s.ck := by rw [h.registers]
  rw [State.writeHashBody, State.writeHashBody, written]
  exact h.setRec _

theorem SameInputs.permuteBody : SameEffect s s' s.permuteBody s'.permuteBody := by
  have permuted : permuteRecord s'.recReg = permuteRecord s.recReg := by rw [h.registers]
  rw [State.permuteBody, State.permuteBody, permuted]
  exact h.setPrec _

theorem SameInputs.encodeBody : SameEffect s s' s.encodeBody s'.encodeBody := by
  have encoded : encodeSerial s'.cfg s'.precReg s'.serial = encodeSerial s.cfg s.precReg s.serial := by
    rw [h.registers]
  rw [State.encodeBody, State.encodeBody, encoded]
  exact h.setSerial _ true

theorem SameInputs.pipelineBodyWith (D : Digest160) :
    SameEffect s s' (s.pipelineBodyWith D) (s'.pipelineBodyWith D) := by
  have packed := h.packBody
  have hashed := packed.checksumBodyWith D
  have written := hashed.writeHashBody
  have permuted := written.permuteBody
  exact packed.trans (hashed.trans (written.trans (permuted.trans permuted.encodeBody)))

/-- SKCLR empties both secrets. -/
theorem SameInputs.clearSecret : SameEffect s s' (s.setSecret s.secret 0#8) (s'.setSecret s'.secret 0#8) := by
  refine h.setSecret ?_ id
  rw [secretBytes_of_length_zero rfl, secretBytes_of_length_zero rfl]

/-- SKPUSH appends the same byte to both secrets, at their one length. -/
theorem SameInputs.pushSecret :
    SameEffect s s'
      (s.setSecret (Memory.write s.secret s.secretLen.toNat (s.din.extractLsb' 0 8)) (s.secretLen + 1#8))
      (s'.setSecret (Memory.write s'.secret s'.secretLen.toNat (s'.din.extractLsb' 0 8)) (s'.secretLen + 1#8)) := by
  have operand : s'.din = s.din := by rw [h.registers]
  rw [h.secretLen, operand]
  refine h.setSecret ?_ fun same => by rw [same]
  rw [secretBytes_eq_iff (by rfl)]
  intro a ha
  rw [State.setSecret_secret, State.setSecret_secret, Memory.read_write, Memory.read_write]
  split
  case isTrue => rfl
  case isFalse other =>
    have : a < s.secretLen.toNat + 1 := lt_of_lt_of_le ha (toNat_add_one_le s.secretLen)
    exact h.readSecret (by omega)

end

/-! ## Every command -/

/-- Both runs end with the same OK, ERR and ERRCODE, in states that a command cannot tell apart. -/
def SameEnd (s s' : State) (o o' : Host.Outcome State Fault Refusal) : Prop :=
  ∃ t t', o = .next t ∧ o' = .next t' ∧ SameEffect s s' t t' ∧ t'.ok = t.ok ∧ t'.err = t.err ∧ t'.errCode = t.errCode

theorem SameEffect.ends {s s' u u' : State} (h : SameEffect s s' u u') :
    SameEnd s s' (endCommand s (.ok u)) (endCommand s' (.ok u')) :=
  ⟨u.complete, u'.complete, rfl, rfl, h.trans h.toSameInputs.complete, rfl, rfl, rfl⟩

theorem SameEffect.fails {s s' u u' : State} (h : SameEffect s s' u u') (e : CmdError) :
    SameEnd s s' (endCommand u (.error e)) (endCommand u' (.error e)) :=
  ⟨u.raiseCmdError e, u'.raiseCmdError e, rfl, rfl, h.trans (h.toSameInputs.raiseCmdError e), rfl, rfl, rfl⟩

section

variable {s s' : State} (h : SameInputs s s')
include h

theorem SameInputs.ends_withSpan {u u' : State} (effect : SameEffect s s' u u') (start : BitVec 7) (width : BitVec 6) :
    SameEnd s s' (endCommand s (withSpan start width u)) (endCommand s' (withSpan start width u')) := by
  by_cases span : SpanInRecord start width
  · rw [withSpan_inside span, withSpan_inside span]
    exact effect.ends
  · rw [withSpan_outside span, withSpan_outside span]
    exact h.same.fails _

theorem SameInputs.ends_checked {u u' : State} (effect : SameEffect s s' u u') :
    SameEnd s s' (endCommand s ((Machine.checkArgs s).map fun _ => u))
      (endCommand s' ((Machine.checkArgs s').map fun _ => u')) := by
  rw [h.checkArgs]
  cases Machine.checkArgs s with
  | ok _ => exact effect.ends
  | error e => exact h.same.fails e

theorem SameInputs.ends_generate (D : Digest160) : SameEnd s s' (execGenerateWith D s) (execGenerateWith D s') := by
  rw [execGenerateWith, execGenerateWith, h.checkArgs]
  cases Machine.checkArgs s with
  | ok _ => exact (h.pipelineBodyWith D).ends
  | error e => exact (h.setSerial _ false).fails e

theorem SameInputs.ends_skpush : SameEnd s s' (execSkpush s) (execSkpush s') := by
  have full : s'.secretLen.toNat = s'.cfg.secretMax ↔ s.secretLen.toNat = s.cfg.secretMax := by rw [h.registers]
  by_cases hfull : s.secretLen.toNat = s.cfg.secretMax
  · rw [execSkpush, execSkpush, if_pos hfull, if_pos (full.mpr hfull)]
    exact h.same.fails _
  · rw [execSkpush, execSkpush, if_neg hfull, if_neg (mt full.mp hfull)]
    exact h.pushSecret.ends

/-- A command does the same to two states that agree on what it reads. -/
theorem SameInputs.exec (i : Instr) : SameEnd s s' (exec i s) (exec i s') := by
  have record : s'.recReg = s.recReg := by rw [h.registers]
  have permuted : s'.precReg = s.precReg := by rw [h.registers]
  have operand : s'.din = s.din := by rw [h.registers]
  have digest : s'.cfg.digest = s.cfg.digest := by rw [h.registers]
  cases i with
  | nop => exact h.same.ends
  | clear => exact (h.setRec 0#125).ends
  | get a b =>
    show SameEnd s s' (execGet a b s) (execGet a b s')
    rw [execGet, execGet, record]
    exact h.ends_withSpan (h.setDout _) a b
  | set a b =>
    show SameEnd s s' (execSet a b s) (execSet a b s')
    rw [execSet, execSet, record, operand]
    exact h.ends_withSpan (h.setRec _) a b
  | getp a b =>
    show SameEnd s s' (execGetp a b s) (execGetp a b s')
    rw [execGetp, execGetp, permuted]
    exact h.ends_withSpan (h.setDout _) a b
  | setp a b =>
    show SameEnd s s' (execSetp a b s) (execSetp a b s')
    rw [execSetp, execSetp, permuted, operand]
    exact h.ends_withSpan (h.setPrec _) a b
  | validate => exact h.ends_checked h.same
  | pack => exact h.ends_checked h.packBody
  | checksum =>
    show SameEnd s s' (execChecksum s) (execChecksum s')
    rw [execChecksum, execChecksum, digest]
    exact (h.checksumBodyWith _).ends
  | wrhash => exact h.writeHashBody.ends
  | permute => exact h.permuteBody.ends
  | encode => exact h.encodeBody.ends
  | generate =>
    show SameEnd s s' (execGenerate s) (execGenerate s')
    rw [execGenerate, execGenerate, digest]
    exact h.ends_generate _
  | skclr => exact h.clearSecret.ends
  | skpush => exact h.ends_skpush

end

/-- Settles O40: the changed bits are none of what a command reads; of STATUS it may carry STICKY and SERIAL_VALID. -/
theorem noCommandReadsStatus : Obligations.NoCommandReadsStatus := by
  intro i s ok err sticky valid code
  have inputs : SameInputs s
      { s with ok := ok, err := err, sticky := sticky, serialValid := valid, errCode := code } := ⟨rfl, rfl⟩
  obtain ⟨t, t', ht, ht', effect, sameOk, sameErr, sameCode⟩ := inputs.exec i
  have registers := effect.registers
  rw [effect.store rfl, sameOk, sameErr, sameCode] at registers
  exact ⟨t, t', ht, ht', registers⟩

/-! ## Every step -/

/-- The two states differ only in SECRET bytes from SECRET_LEN on. -/
def SameButStale (s s' : State) : Prop := (∃ m, s' = { s with secret := m }) ∧ secretBytes s' = secretBytes s

/-- If the first run answers a next state, so does the second, and the two states differ only in stale SECRET bytes. -/
def SameNext (o o' : Host.Outcome State Fault Refusal) : Prop :=
  ∀ t, o = .next t → ∃ t', o' = .next t' ∧ SameButStale t t'

theorem SameButStale.sameNext {t t' : State} (h : SameButStale t t') : SameNext (.next t) (.next t') := by
  rintro _ ⟨⟩
  exact ⟨t', rfl, h⟩

theorem SameNext.of_fault {f : Fault} {o : Host.Outcome State Fault Refusal} : SameNext (.fault f) o := by
  rintro _ ⟨⟩

/-- An update that neither reads nor writes the SECRET store keeps the two states alike. -/
theorem SameButStale.map {s s' : State} (h : SameButStale s s') (f : State → State)
    (commutes : ∀ s m, f { s with secret := m } = { f s with secret := m })
    (keeps : ∀ s, secretBytes (f s) = secretBytes s) : SameButStale (f s) (f s') := by
  obtain ⟨⟨m, rfl⟩, secret⟩ := h
  exact ⟨⟨m, commutes s m⟩, by rw [keeps, keeps, secret]⟩

/-- The words a host reads hold no SECRET byte (10_state.md R29). -/
theorem readReg_withSecret (r : HostReg) (s : State) (m : Memory) : readReg r { s with secret := m } = readReg r s := rfl

section

variable {s s' : State} (h : SameButStale s s')
include h

theorem SameButStale.setLastCmd (c : Word) : SameButStale (s.setLastCmd c) (s'.setLastCmd c) :=
  h.map (·.setLastCmd c) (fun _ _ => rfl) fun _ => rfl

theorem SameButStale.raiseCmdError (e : CmdError) : SameButStale (s.raiseCmdError e) (s'.raiseCmdError e) :=
  h.map (·.raiseCmdError e) (fun _ _ => rfl) fun _ => rfl

theorem SameButStale.accept : SameButStale s.accept s'.accept := h.map (·.accept) (fun _ _ => rfl) fun _ => rfl

theorem SameButStale.exec (i : Instr) : SameNext (exec i s) (exec i s') := by
  obtain ⟨⟨m, rfl⟩, secret⟩ := h
  intro t ht
  obtain ⟨u, u', hu, hu', effect, sameOk, sameErr, sameCode⟩ := SameInputs.exec ⟨rfl, secret⟩ i
  obtain rfl := Host.Outcome.next.inj (hu.symm.trans ht)
  have registers := effect.registers
  rw [effect.sticky rfl, effect.serialValid rfl, sameOk, sameErr, sameCode] at registers
  exact ⟨u', hu', ⟨u'.secret, registers⟩, effect.secret⟩

theorem SameButStale.runCommand (c : Word) : SameNext (runCommand c s) (runCommand c s') := by
  rw [Machine.runCommand, Machine.runCommand, runCommandBy, runCommandBy]
  cases decode c with
  | ok i => exact (h.setLastCmd c).exec i
  | error e => exact ((h.setLastCmd c).raiseCmdError e).sameNext

theorem SameButStale.writeReg (r : HostReg) (v : Word) : SameNext (writeReg r v s) (writeReg r v s') := by
  have writes : ∀ f : State → State, (∀ s m, f { s with secret := m } = { f s with secret := m }) →
      (∀ s, secretBytes (f s) = secretBytes s) → SameNext (.next (f s)) (.next (f s')) :=
    fun f commutes keeps => (h.map f commutes keeps).sameNext
  cases r with
  | cmd => exact h.runCommand v
  | status => exact writes (·.writeStatus v) (fun _ _ => rfl) fun _ => rfl
  | argCount => exact writes ({ · with argCount := v }) (fun _ _ => rfl) fun _ => rfl
  | argVersion => exact writes ({ · with argVersion := v }) (fun _ _ => rfl) fun _ => rfl
  | argAddons => exact writes ({ · with argAddons := v }) (fun _ _ => rfl) fun _ => rfl
  | unitSeed => exact writes ({ · with unitSeed := v }) (fun _ _ => rfl) fun _ => rfl
  | batchSeed => exact writes ({ · with batchSeed := v }) (fun _ _ => rfl) fun _ => rfl
  | dinLo => exact writes (fun s => { s with din := s.din.extractLsb' 32 32 ++ v }) (fun _ _ => rfl) fun _ => rfl
  | dinHi => exact writes (fun s => { s with din := v ++ s.din.extractLsb' 0 32 }) (fun _ _ => rfl) fun _ => rfl
  | _ => exact .of_fault

theorem SameButStale.perform (e : HostEvent) : SameNext (perform e s) (perform e s') := by
  cases e with
  | read off size =>
    cases access : accessReg off size with
    | none =>
      simp only [Machine.perform, performBy, access]
      exact .of_fault
    | some r =>
      have answer : readReg r s' = readReg r s := by
        obtain ⟨⟨m, rfl⟩, -⟩ := h
        exact readReg_withSecret r s m
      simp only [Machine.perform, performBy, access, answer]
      exact (h.map (·.setReply (readReg r s)) (fun _ _ => rfl) fun _ => rfl).sameNext
  | write off size v =>
    cases access : accessReg off size with
    | none =>
      simp only [Machine.perform, performBy, access]
      exact .of_fault
    | some r =>
      simp only [Machine.perform, performBy, access]
      exact h.writeReg r v
  | reset =>
    obtain ⟨⟨m, rfl⟩, -⟩ := h
    exact SameButStale.sameNext ⟨⟨[], rfl⟩, rfl⟩

theorem SameButStale.step : SameNext (step s) (step s') := by
  have arrived : s'.pending = s.pending := by
    obtain ⟨⟨m, rfl⟩, -⟩ := h
    rfl
  cases hp : s.pending with
  | nil =>
    rw [step_idle hp, step_idle (arrived.trans hp)]
    exact h.sameNext
  | cons e rest =>
    rw [step_event hp, step_event (arrived.trans hp)]
    exact h.accept.perform e

end

/-- Settles O51: stores that agree below SECRET_LEN hold one secret, and no step tells such states apart. -/
theorem staleSecretBytesAreInvisible : Obligations.StaleSecretBytesAreInvisible := by
  intro s t m agree ht
  have stale : SameButStale s { s with secret := m } := ⟨⟨m, rfl⟩, (secretBytes_eq_iff (by rfl)).mpr agree⟩
  obtain ⟨_, ht', ⟨m', rfl⟩, secret⟩ := stale.step t ht
  exact ⟨m', ht', (secretBytes_eq_iff (by rfl)).mp secret⟩

/-- Settles O50: an access that reaches a register answers that register, which is no SECRET byte; any other faults
before it reads anything. -/
theorem secretIsUnreadable : Obligations.SecretIsUnreadable := by
  intro s m off size rest hp
  cases access : accessReg off size with
  | none => exact .inr ⟨step_read_rejected hp access, step_read_rejected hp access⟩
  | some r =>
    obtain ⟨rfl, rfl⟩ := accessReg_eq_some.mp access
    refine .inl ⟨_, step_read hp, ?_⟩
    rw [step_read (s := { s with secret := m }) hp, readReg_withSecret]

end Sys2Proof.Machine
end

section
/-! PROOFS. What every step keeps (10_state.md R22 to R36, R43; 70_reset_and_hazards.md R300): the registers a command
does not write, the configuration, and the invariant. -/

namespace Sys2Proof.Machine

/-! ## The registers a command writes (10_state.md R22, R24 to R31) -/

/-- A completed command's frame: the configuration, the operands, LASTCMD and the port. -/
theorem Wrote.frame {i : Instr} {s u : State} (h : Wrote i s u) :
    u = { s with
      recReg := u.recReg, precReg := u.precReg, ck := u.ck, dg := u.dg, serial := u.serial
      serialValid := u.serialValid, secret := u.secret, secretLen := u.secretLen, dout := u.dout
      ok := u.ok, err := u.err, sticky := u.sticky, errCode := u.errCode } := by
  obtain ⟨din, argCount, argVersion, argAddons, unitSeed, batchSeed⟩ := h.operands
  obtain ⟨lastCmd, pending, reply⟩ := h.port
  rw [← h.cfg, ← din, ← argCount, ← argVersion, ← argAddons, ← unitSeed, ← batchSeed, ← lastCmd,
    ← pending, ← reply]

/-- Settles O41: a completion has written what its command writes, and an error STATUS alone, but for the serial that
GENERATE clears. -/
theorem commandsWriteOnlyTheirRegisters : Obligations.CommandsWriteOnlyTheirRegisters := by
  intro i s t h
  obtain ⟨u, rfl, wrote⟩ | ⟨e, rfl | ⟨rfl, rfl⟩⟩ := exec_next h
  · refine ⟨wrote.recReg, wrote.precReg, ?checksum, ?serial, ?secret, ?dout, congrArg State.complete wrote.frame⟩
    case checksum => exact wrote.checksum.imp_right And.left
    case serial => exact wrote.serial.imp_right And.left
    case secret =>
      obtain same | ⟨rfl, -⟩ | ⟨rfl, -⟩ := wrote.secret
      · exact .inl same
      · exact .inr (.inl rfl)
      · exact .inr (.inr rfl)
    case dout => exact wrote.dout.imp_right And.left
  · exact ⟨.inl rfl, .inl rfl, .inl ⟨rfl, rfl⟩, .inl ⟨rfl, rfl⟩, .inl ⟨rfl, rfl⟩, .inl rfl, rfl⟩
  · exact ⟨.inl rfl, .inl rfl, .inl ⟨rfl, rfl⟩, .inr (.inr rfl), .inl ⟨rfl, rfl⟩, .inl rfl, rfl⟩

/-! ## The configuration (R43, R300) -/

theorem runCommand_cfg {c : Word} {s t : State} (h : runCommand c s = .next t) : t.cfg = s.cfg := by
  obtain ⟨i, u, -, wrote, rfl⟩ | ⟨e, rfl | ⟨-, rfl⟩⟩ := runCommand_next h
  · exact wrote.cfg
  · rfl
  · rfl

/-- Settles O56: of all events only a command could write another register than its own, and none writes `cfg`. -/
theorem configurationNeverChanges : Obligations.ConfigurationNeverChanges := by
  intro s t h
  obtain ⟨-, rfl⟩ | ⟨r, _, -, rfl⟩ | ⟨r, v, _, -, hreg⟩ | ⟨_, -, rfl⟩ := step_next h
  · rfl
  · rfl
  · obtain ⟨-, hrun⟩ | ⟨-, rfl⟩ | ⟨-, rfl⟩ | ⟨-, rfl⟩ | ⟨-, rfl⟩ | ⟨-, rfl⟩ | ⟨-, rfl⟩ | ⟨-, rfl⟩ | ⟨-, rfl⟩ :=
      writeReg_next hreg
    · exact (runCommand_cfg hrun).trans s.accept_cfg
    all_goals rfl
  · rfl

/-! ## Reset (R300, R301) -/

theorem step_reset {s : State} {rest : List HostEvent} (hp : s.pending = .reset :: rest) :
    step s = .next { State.resetWith s.cfg with pending := rest } := by
  rw [step_event hp, State.accept_of_pending hp]
  rfl

/-- Settles O53: the state a reset leaves is `State.resetWith` under the same configuration. -/
theorem resetRestoresRegisters : Obligations.ResetRestoresRegisters := fun _ _ hp =>
  ⟨_, step_reset hp, rfl, rfl, rfl⟩

theorem fold_zero : fold (Vector.replicate 20 0x00#8) = 0#40 := by decide

theorem inv_resetWith (cfg : Config) : Inv (State.resetWith cfg) where
  secretCanonical := Memory.reset_wf
  secretBounded := fun _ h => absurd h List.not_mem_nil
  lengthBounded := Nat.zero_le _
  checksumFolds := fold_zero.symm
  doutTop := BitVec.getLsbD_zero
  okOrErr := fun h => Bool.false_ne_true h.1
  noErrorCode := fun _ => rfl
  errorCode := fun h => absurd h Bool.false_ne_true
  validSerial := fun h => absurd h Bool.false_ne_true
  noSerial := fun _ => rfl

/-- Settles O55: reset clears every register the invariant speaks of, under any configuration. -/
theorem resetMeetsInvariant : Obligations.ResetMeetsInvariant := ⟨inv_resetWith Config.default, inv_resetWith⟩

/-! ## The invariant -/

section

variable {s : State} (h : Inv s)
include h

theorem Inv.accept : Inv s.accept := { h with }

theorem Inv.raiseCmdError (e : CmdError) : Inv (s.raiseCmdError e) := { h with
  okOrErr := fun both => Bool.false_ne_true both.1
  noErrorCode := fun no => absurd no.symm Bool.false_ne_true
  errorCode := fun _ => CmdError.code_bounds e }

theorem Inv.clearSerial : Inv s.clearSerial := { h with
  validSerial := fun valid => absurd valid Bool.false_ne_true
  noSerial := fun _ => rfl }

theorem Inv.setLastCmd (c : Word) : Inv (s.setLastCmd c) := { h with }

theorem Inv.setReply (v : Word) : Inv (s.setReply v) := { h with }

theorem Inv.writeStatus (v : Word) : Inv (s.writeStatus v) := { h with }

end

/-- DOUT[63] is 0 after GET and GETP: a span has at most 63 cells (40_record_access.md R123). -/
theorem getLsbD_readSpan_top (a : Record) (start : BitVec 7) (width : BitVec 6) :
    (readSpan a start width).getLsbD 63 = false := by
  have narrow : ¬ 63 < width.toNat := by have := width.isLt; omega
  rw [getLsbD_readSpan, decide_eq_false narrow, Bool.false_and]

section

variable {s u : State} {i : Instr} (h : Inv s) (wrote : Wrote i s u)
include h wrote

/-- The store SKPUSH leaves is canonical, as every write's is. -/
theorem Inv.secretCanonical_of_wrote : Memory.wf u.secret := by
  obtain ⟨same, -⟩ | ⟨-, same, -⟩ | ⟨-, -, written, -⟩ := wrote.secret
  · exact same ▸ h.secretCanonical
  · exact same ▸ h.secretCanonical
  · exact written ▸ Memory.write_wf h.secretCanonical _ _

/-- SKPUSH writes at SECRET_LEN, and only below SECRET_MAX. -/
theorem Inv.secretBounded_of_wrote : ∀ cell ∈ u.secret, cell.1 < u.cfg.secretMax := by
  rw [wrote.cfg]
  obtain ⟨same, -⟩ | ⟨-, same, -⟩ | ⟨-, room, written, -⟩ := wrote.secret
  · exact same ▸ h.secretBounded
  · exact same ▸ h.secretBounded
  · rw [written]
    intro cell mem
    obtain ⟨rfl, -⟩ | ⟨old, -⟩ := Memory.mem_write _ _ _ _ mem
    · exact lt_of_le_of_ne h.lengthBounded room
    · exact h.secretBounded cell old

theorem Inv.lengthBounded_of_wrote : u.secretLen.toNat ≤ u.cfg.secretMax := by
  rw [wrote.cfg]
  obtain ⟨-, same⟩ | ⟨-, -, zero⟩ | ⟨-, room, -, pushed⟩ := wrote.secret
  · exact same ▸ h.lengthBounded
  · rw [zero]
    exact Nat.zero_le _
  · have below : s.secretLen.toNat < s.cfg.secretMax := lt_of_le_of_ne h.lengthBounded room
    rw [pushed, toNat_secretLen_add_one below]
    exact below

theorem Inv.checksumFolds_of_wrote : u.ck = fold u.dg := by
  obtain ⟨ck, dg⟩ | ⟨-, folded⟩ := wrote.checksum
  · rw [ck, dg, h.checksumFolds]
  · exact folded

theorem Inv.doutTop_of_wrote : u.dout.getLsbD 63 = false := by
  obtain same | ⟨-, a, start, width, read⟩ := wrote.dout
  · rw [same, h.doutTop]
  · rw [read, getLsbD_readSpan_top]

theorem Inv.validSerial_of_wrote (valid : u.serialValid = true) :
    (∃ p : Record, EncodesRecord u.cfg p u.serial) ∧ SerialShape u.serial := by
  rw [wrote.cfg]
  obtain ⟨serial, same⟩ | ⟨-, -, p, out, serial⟩ := wrote.serial
  · rw [serial]
    exact h.validSerial (same ▸ valid)
  · have encodes : EncodesRecord s.cfg p u.serial := serial ▸ encodesRecord_encodeSerial s.cfg p out
    exact ⟨⟨p, encodes⟩, encodes.serialShape⟩

theorem Inv.noSerial_of_wrote (invalid : u.serialValid = false) : u.serial = Vector.replicate 29 0x00#8 := by
  obtain ⟨serial, same⟩ | ⟨-, valid, -⟩ := wrote.serial
  · rw [serial, h.noSerial (same ▸ invalid)]
  · exact absurd (invalid.symm.trans valid) Bool.false_ne_true

/-- A command that completes keeps the invariant, and its STATUS reports no error. -/
theorem Inv.complete_of_wrote : Inv u.complete where
  secretCanonical := h.secretCanonical_of_wrote (u := u) wrote
  secretBounded := h.secretBounded_of_wrote (u := u) wrote
  lengthBounded := h.lengthBounded_of_wrote (u := u) wrote
  checksumFolds := h.checksumFolds_of_wrote (u := u) wrote
  doutTop := h.doutTop_of_wrote (u := u) wrote
  okOrErr := fun both => Bool.false_ne_true both.2
  noErrorCode := fun _ => rfl
  errorCode := fun err => absurd err Bool.false_ne_true
  validSerial := h.validSerial_of_wrote (u := u) wrote
  noSerial := h.noSerial_of_wrote (u := u) wrote

end

theorem Inv.runCommand {c : Word} {s t : State} (h : Inv s) (hrun : runCommand c s = .next t) : Inv t := by
  have last := h.setLastCmd c
  obtain ⟨i, u, -, wrote, rfl⟩ | ⟨e, rfl | ⟨-, rfl⟩⟩ := runCommand_next hrun
  · exact last.complete_of_wrote wrote
  · exact last.raiseCmdError e
  · exact last.clearSerial.raiseCmdError e

theorem Inv.writeReg {r : HostReg} {v : Word} {s t : State} (h : Inv s) (hreg : writeReg r v s = .next t) : Inv t := by
  obtain ⟨-, hrun⟩ | ⟨-, rfl⟩ | ⟨-, rfl⟩ | ⟨-, rfl⟩ | ⟨-, rfl⟩ | ⟨-, rfl⟩ | ⟨-, rfl⟩ | ⟨-, rfl⟩ | ⟨-, rfl⟩ :=
    writeReg_next hreg
  · exact h.runCommand hrun
  · exact h.writeStatus v
  all_goals exact { h with }

/-- Settles O54: a step is nothing, an answered read, a register write or a reset, and each keeps the invariant. -/
theorem everyStepKeepsInvariant : Obligations.EveryStepKeepsInvariant := by
  intro s t h hstep
  obtain ⟨-, rfl⟩ | ⟨r, _, -, rfl⟩ | ⟨r, v, _, -, hreg⟩ | ⟨_, -, rfl⟩ := step_next hstep
  · exact h
  · exact h.accept.setReply _
  · exact h.accept.writeReg hreg
  · exact { inv_resetWith s.cfg with }

end Sys2Proof.Machine
end

section
/-! PROOFS. Facts that join two commands or two states: a span read after it is written (40_record_access.md R122 to
R126), the secret as a sequence (42_checksum.md R182), what CHECKSUM reads (R185, R189), and the permuter as a bijection
(43_permute.md R213, R214). -/

namespace Sys2Proof.Machine

/-! ## A span read after it is written (40_record_access.md R122) -/

theorem toNat_readSpan (a : Record) (start : BitVec 7) (width : BitVec 6) :
    (readSpan a start width).toNat = (getf a start.toNat width.toNat).toNat := by
  rw [readSpan, BitVec.toNat_setWidth_of_le]
  exact le_of_lt (width.isLt.trans_le (by decide))

/-- A span read back holds the low bits of the value written. -/
theorem toNat_readSpan_writeSpan {start : BitVec 7} {width : BitVec 6} (inside : SpanInRecord start width) (a : Record)
    (v : BitVec 64) : (readSpan (writeSpan a start width v) start width).toNat = v.toNat % 2 ^ width.toNat := by
  rw [toNat_readSpan]
  apply Nat.eq_of_testBit_eq
  intro i
  rw [BitVec.testBit_toNat, getLsbD_getf, Nat.testBit_mod_two_pow, BitVec.testBit_toNat]
  by_cases hi : i < width.toNat
  · rw [writeSpan, getLsbD_setf_inside a v inside hi]
  · rw [decide_eq_false hi, Bool.false_and, Bool.false_and]

/-- Settles O16: both commands complete, and the second reads what the first wrote. -/
theorem setThenGetReadsBack : Obligations.SetThenGetReadsBack := by
  intro start width s inside
  constructor
  · refine ⟨_, by rw [exec_set_inside inside, andThen_next, exec_get_inside inside], ?_⟩
    exact toNat_readSpan_writeSpan inside s.recReg s.din
  · refine ⟨_, by rw [exec_setp_inside inside, andThen_next, exec_getp_inside inside], ?_⟩
    exact toNat_readSpan_writeSpan inside s.precReg s.din

/-! ## The secret (42_checksum.md R181, R182) -/

/-- A byte written at the secret's end, with the length raised by one, extends the secret by it. -/
theorem secretBytes_push {s : State} (room : s.secretLen.toNat < s.cfg.secretMax) (b : Byte) :
    secretBytes (s.setSecret (Memory.write s.secret s.secretLen.toNat b) (s.secretLen + 1#8)) = secretBytes s ++ [b] := by
  have before : ∀ a ∈ List.range s.secretLen.toNat,
      Memory.read (Memory.write s.secret s.secretLen.toNat b) a = Memory.read s.secret a := by
    intro a ha
    rw [Memory.read_write, if_neg (List.mem_range.mp ha).ne]
  rw [secretBytes, State.setSecret_secretLen, State.setSecret_secret, toNat_secretLen_add_one room, List.range_succ,
    List.map_append, List.map_congr_left before, List.map_singleton, Memory.read_write, if_pos rfl, secretBytes]

/-- Settles O21: the byte SKPUSH appends is DIN[7:0]. -/
theorem skpushExtendsSecret : Obligations.SkpushExtendsSecret := fun s room =>
  ⟨_, exec_skpush_of_ne room.ne, by
    rw [secretBytes_complete, secretBytes_push room, extractLsb'_zero_eq_ofNat]⟩

/-! ## CHECKSUM's inputs (42_checksum.md R185, R189) -/

theorem exec_checksum (s : State) : exec .checksum s = .next s.checksumBody.complete := rfl

/-- Settles O24: the two states give one digest message, and DG and CK are functions of it. -/
theorem checksumReadsOnlyWindowAndSecret : Obligations.ChecksumReadsOnlyWindowAndSecret := by
  intro s s' cfg cells secret
  have message : digestMessage s = digestMessage s' := digestMessage_congr cells secret (by rw [cfg]) (by rw [cfg])
  have digest : digest160 s.cfg.digest (digestMessage s) = digest160 s'.cfg.digest (digestMessage s') := by
    rw [cfg, message]
  exact ⟨_, _, exec_checksum s, exec_checksum s', digest, congrArg fold digest⟩

/-! ## The permuter as a bijection (43_permute.md R212 to R214) -/

/-- The two printed tables, entry by entry, from the destinations. -/
theorem specSource_table_inverse :
    ∀ d < 105, specSource d < 105 ∧ specDestination (specSource d) = d := by decide +kernel

theorem specSource_lt {d : Nat} (h : d < 125) : specSource d < 125 := by
  obtain table | beyond := Nat.lt_or_ge d 105
  · exact (specSource_table_inverse d table).1.trans (by decide)
  · rwa [specSource_of_le beyond]

@[simp] theorem specDestination_specSource (d : Nat) : specDestination (specSource d) = d := by
  obtain table | beyond := Nat.lt_or_ge d 105
  · exact (specSource_table_inverse d table).2
  · rw [specSource_of_le beyond, specDestination_of_le beyond]

/-- Settles O28: each 1 of PREC is the 1 of REC at its source, and each 1 of REC is at one destination. -/
theorem permuteKeepsOnes : Obligations.PermuteKeepsOnes := by
  intro s
  refine ⟨s.permuteBody.complete, exec_permute s, ?_⟩
  show ((Finset.range 125).filter fun d => (permuteRecord s.recReg).getLsbD d = true).card = _
  refine Finset.card_nbij' specSource specDestination ?sources ?destinations
    (fun d _ => specDestination_specSource d) (fun k _ => specSource_specDestination k)
  case sources =>
    intro d hd
    simp only [Finset.mem_coe, Finset.mem_filter, Finset.mem_range] at hd ⊢
    obtain ⟨cell, one⟩ := hd
    exact ⟨specSource_lt cell, by rwa [← getLsbD_permuteRecord_specSource _ cell]⟩
  case destinations =>
    intro k hk
    simp only [Finset.mem_coe, Finset.mem_filter, Finset.mem_range] at hk ⊢
    obtain ⟨cell, one⟩ := hk
    exact ⟨specDestination_lt cell, by rwa [getLsbD_permuteRecord_specDestination _ cell]⟩

end Sys2Proof.Machine
end

section
/-! PROOFS. The configuration (44_encode.md R233), what a serial tells of the record and of the operands it was made from
(45_generate.md R255), and the host's side of the port (20_memory.md R60 to R64). -/

namespace Sys2Proof.Machine

/-! ## The configuration (44_encode.md R233; 93_implementation_defined.md I7) -/

theorem Config.alphabet_injective (cfg : Config) : Function.Injective fun v : Fin 32 => cfg.alphabet[v] := by
  obtain ⟨distinct, -⟩ := cfg.wellFormed
  intro v w same
  exact Fin.ext ((distinct.getElem_inj_iff (hi := by simp) (hj := by simp)).mp same)

/-- ALPHABET's image is the 32 characters. -/
theorem mem_symbolSet_iff (cfg : Config) (ch : Byte) : ch ∈ symbolSet ↔ ∃ v : Fin 32, cfg.alphabet[v] = ch := by
  obtain ⟨-, -, symbols, -⟩ := cfg.wellFormed
  constructor
  · intro h
    obtain ⟨v, hv, rfl⟩ := Vector.getElem_of_mem (Vector.mem_toList_iff.mp (symbols h))
    exact ⟨⟨v, hv⟩, rfl⟩
  · rintro ⟨v, rfl⟩
    exact alphabet_getElem_mem_symbolSet cfg v

/-- Settles O32: the check decides whether a machine is configured, and a configuration carries the check's proof. -/
theorem illFormedConfigurationRefused : Obligations.IllFormedConfigurationRefused := by
  refine ⟨fun p => ⟨fun bad => dif_neg bad, fun good => ⟨_, dif_pos good, rfl⟩⟩, fun s => ?_⟩
  obtain ⟨-, -, -, -, lower, upper⟩ := s.cfg.wellFormed
  exact ⟨Config.alphabet_injective s.cfg, mem_symbolSet_iff s.cfg,
    ⟨Config.slotMap_injective s.cfg, Config.slotMap_surjective s.cfg⟩, lower, upper⟩

/-! ## What a serial tells (45_generate.md R255) -/

theorem record_eq_of_groups {p p' : Record} (h : ∀ i, group p i = group p' i) : p = p' := by
  apply BitVec.eq_of_getLsbD_eq
  intro k hk
  have cell : ∀ r : Record, (group r ⟨k / 5, by omega⟩).getLsbD (k % 5) = r.getLsbD k := by
    intro r
    have inside : k % 5 < 5 := Nat.mod_lt k (by decide)
    have place : 5 * (k / 5) + k % 5 = k := Nat.div_add_mod k 5
    rw [group, getLsbD_getf, decide_eq_true inside, Bool.true_and, place]
  rw [← cell p, ← cell p', h]

/-- One serial encodes one record: ALPHABET gives every group's value back. -/
theorem EncodesRecord.injective {cfg cfg' : Config} {p p' : Record} {serial : Vector Byte 29}
    (alphabet : cfg.alphabet = cfg'.alphabet) (slotMap : cfg.slotMap = cfg'.slotMap)
    (h : EncodesRecord cfg p serial) (h' : EncodesRecord cfg' p' serial) : p = p' := by
  obtain ⟨-, symbols⟩ := h
  obtain ⟨-, symbols'⟩ := h'
  rw [← alphabet, ← slotMap] at symbols'
  refine record_eq_of_groups fun i => ?_
  have symbol := symbols i (group p i).toFin (slotPosition cfg.slotMap[i]) (toNat_group p i) rfl
  have symbol' := symbols' i (group p' i).toFin (slotPosition cfg.slotMap[i]) (toNat_group p' i) rfl
  have value : (group p i).toFin = (group p' i).toFin :=
    Config.alphabet_injective cfg (symbol.symm.trans symbol')
  exact BitVec.eq_of_toFin_eq value

/-- Under one ALPHABET and SLOT_MAP, two encodings are equal exactly when they are of one record. -/
theorem EncodesRecord.serial_eq_iff {cfg cfg' : Config} {p p' : Record} {serial serial' : Vector Byte 29}
    (alphabet : cfg.alphabet = cfg'.alphabet) (slotMap : cfg.slotMap = cfg'.slotMap)
    (h : EncodesRecord cfg p serial) (h' : EncodesRecord cfg' p' serial') : serial = serial' ↔ p = p' := by
  constructor
  · rintro rfl
    exact h.injective alphabet slotMap h'
  · rintro rfl
    exact h.unique alphabet slotMap h'

/-- Settles O31: both serials encode their PREC. -/
theorem encodeIsInjective : Obligations.EncodeIsInjective := fun s s' cfg =>
  ⟨_, _, exec_encode s, exec_encode s',
    (encodesRecord_encodeSerial s.cfg s.precReg s.serial).serial_eq_iff (by rw [cfg]) (by rw [cfg])
      (encodesRecord_encodeSerial s'.cfg s'.precReg s'.serial)⟩

theorem permuteRecord_injective : Function.Injective permuteRecord := by
  intro r r' same
  apply BitVec.eq_of_getLsbD_eq
  intro k hk
  rw [← getLsbD_permuteRecord_specDestination r hk, same, getLsbD_permuteRecord_specDestination r' hk]

/-- Equal serials of two completed pipelines come from packed records that agree outside the Hash field. -/
theorem packedCell_eq_of_serial_eq {s s' : State} (alphabet : s.cfg.alphabet = s'.cfg.alphabet)
    (slotMap : s.cfg.slotMap = s'.cfg.slotMap) (serial : s.pipelineBody.serial = s'.pipelineBody.serial) {k : Nat}
    (hk : 40 ≤ k) : packedCell s k = packedCell s' k := by
  have permuted : s.pipelineBody.precReg = s'.pipelineBody.precReg :=
    ((encodesRecord_pipelineBody s).serial_eq_iff alphabet slotMap (encodesRecord_pipelineBody s')).mp serial
  have record : s.pipelineBody.recReg = s'.pipelineBody.recReg :=
    permuteRecord_injective (by rw [← State.pipelineBody_precReg, ← State.pipelineBody_precReg, permuted])
  have cell := congrArg (·.getLsbD k) record
  have outside : ¬ k < 40 := Nat.not_lt.mpr hk
  simpa only [getLsbD_pipelineBody_recReg, if_neg outside] using cell

/-! The operands in the packed record's cells (00_scope.md R17). -/

section

variable (s : State) {i : Nat}

theorem packedCell_unitId (hi : i < 25) : packedCell s (80 + i) = s.unitSeed.getLsbD i := by
  grind [packedCell]

theorem packedCell_version (hi : i < 5) : packedCell s (105 + i) = s.argVersion.getLsbD i := by
  grind [packedCell]

theorem packedCell_batchId (hi : i < 15) : packedCell s (110 + i) = s.batchSeed.getLsbD i := by
  grind [packedCell]

theorem packedCell_count (gate : 6 ≤ s.argVersion.toInt) (hi : i < 16) :
    packedCell s (45 + i) = s.argCount.getLsbD i := by
  grind [packedCell]

theorem packedCell_flags (gate : 8 ≤ s.argVersion.toInt) (hi : i < 5) :
    packedCell s (40 + i) = s.argAddons.getLsbD i := by
  grind [packedCell]

end

theorem extractLsb'_zero_congr {n : Nat} {x y : BitVec n} (w : Nat) (h : ∀ i, i < w → x.getLsbD i = y.getLsbD i) :
    x.extractLsb' 0 w = y.extractLsb' 0 w := by
  apply BitVec.eq_of_getLsbD_eq
  intro i hi
  rw [BitVec.getLsbD_extractLsb', BitVec.getLsbD_extractLsb', Nat.zero_add, h i hi]

/-- A signed operand that is not negative is its unsigned value. -/
theorem toNat_eq_toInt {x : Word} (h : 0 ≤ x.toInt) : (x.toNat : Int) = x.toInt := by
  rw [BitVec.toInt_eq_toNat_cond] at h ⊢
  split at h
  · rw [if_pos ‹_›]
  · have := x.isLt
    omega

/-- A number below `2 ^ w` is its low `w` bits. -/
theorem eq_of_lowBits {x y : Word} {w : Nat} (hx : x.toNat < 2 ^ w) (hy : y.toNat < 2 ^ w)
    (h : x.extractLsb' 0 w = y.extractLsb' 0 w) : x = y := by
  have value := congrArg BitVec.toNat h
  rw [extractLsb'_zero_eq_ofNat, extractLsb'_zero_eq_ofNat, BitVec.toNat_ofNat, BitVec.toNat_ofNat,
    Nat.mod_eq_of_lt hx, Nat.mod_eq_of_lt hy] at value
  exact BitVec.eq_of_toNat_eq value

theorem VersionOk.toNat_lt {s : State} (h : VersionOk s) : s.argVersion.toNat < 2 ^ 5 := by
  have := toNat_eq_toInt h.1
  have := h.2
  omega

theorem CountOk.toNat_lt {s : State} (h : CountOk s) : s.argCount.toNat < 2 ^ 16 := by
  have := toNat_eq_toInt h.1
  have := h.2
  omega

/-- Settles O36: equal serials come from equal packed cells, which hold the operands' used bits; the argument check
bounds the version and the count by them. -/
theorem serialDeterminesOperands : Obligations.SerialDeterminesOperands := by
  intro s s' valid valid' alphabet slotMap
  refine ⟨_, _, exec_generate_of_argsValid valid, exec_generate_of_argsValid valid', fun serial => ?_⟩
  obtain ⟨-, versionOk, countOk⟩ := valid
  obtain ⟨-, versionOk', countOk'⟩ := valid'
  have cells : ∀ k, 40 ≤ k → packedCell s k = packedCell s' k := fun k hk =>
    packedCell_eq_of_serial_eq alphabet slotMap serial hk
  have version : s.argVersion = s'.argVersion :=
    eq_of_lowBits versionOk.toNat_lt versionOk'.toNat_lt <| extractLsb'_zero_congr 5 fun i hi => by
      rw [← packedCell_version s hi, cells _ (by omega), packedCell_version s' hi]
  refine ⟨version, ?unit, ?batch, fun gate => ?count, fun gate => ?flags⟩
  case unit =>
    refine extractLsb'_zero_congr 25 fun i hi => ?_
    rw [← packedCell_unitId s hi, cells _ (by omega), packedCell_unitId s' hi]
  case batch =>
    refine extractLsb'_zero_congr 15 fun i hi => ?_
    rw [← packedCell_batchId s hi, cells _ (by omega), packedCell_batchId s' hi]
  case count =>
    refine eq_of_lowBits countOk.toNat_lt countOk'.toNat_lt <| extractLsb'_zero_congr 16 fun i hi => ?_
    rw [← packedCell_count s gate hi, cells _ (by omega), packedCell_count s' (version ▸ gate) hi]
  case flags =>
    refine extractLsb'_zero_congr 5 fun i hi => ?_
    rw [← packedCell_flags s gate hi, cells _ (by omega), packedCell_flags s' (version ▸ gate) hi]

/-! ## The host's side of the port (20_memory.md R60 to R64) -/

/-- DIN_LO is the low half of DIN, and a write of it keeps the high half. -/
theorem append_high_half (d : BitVec 64) (v : Word) :
    (d.extractLsb' 32 32 ++ v : BitVec 64) = BitVec.ofNat 64 (v.toNat + d.toNat / 2 ^ 32 * 2 ^ 32) := by
  refine eq_ofNat_of_toNat_eq ((toNat_append_eq_add _ v).trans ?_)
  rw [extractLsb'_eq_ofNat_div, BitVec.toNat_ofNat]
  have := d.isLt
  omega

/-- DIN_HI is the high half of DIN, and a write of it keeps the low half. -/
theorem append_low_half (d : BitVec 64) (v : Word) :
    (v ++ d.extractLsb' 0 32 : BitVec 64) = BitVec.ofNat 64 (d.toNat % 2 ^ 32 + v.toNat * 2 ^ 32) := by
  refine eq_ofNat_of_toNat_eq ((toNat_append_eq_add v _).trans ?_)
  rw [extractLsb'_zero_eq_ofNat, BitVec.toNat_ofNat, Nat.add_comm]

/-- Settles O46: at each offset the register's own write, with a half of DIN as a number. -/
theorem hostWritesOperands : Obligations.HostWritesOperands :=
  ⟨writesAs_offsetOf (r := .argCount) fun _ _ => rfl,
    writesAs_offsetOf (r := .argVersion) fun _ _ => rfl,
    writesAs_offsetOf (r := .argAddons) fun _ _ => rfl,
    writesAs_offsetOf (r := .unitSeed) fun _ _ => rfl,
    writesAs_offsetOf (r := .batchSeed) fun _ _ => rfl,
    writesAs_offsetOf (r := .dinLo) fun s v => by rw [← append_high_half]; rfl,
    writesAs_offsetOf (r := .dinHi) fun s v => by rw [← append_low_half]; rfl⟩

/-- Settles O49: an offset has 7 bits, so BASE + offset lies in the window, and the offset is what BASE leaves of it. -/
theorem windowIsAtBase : Obligations.WindowIsAtBase := by
  refine fun s access => ⟨fun off => ?_, fun address outside => if_neg (by omega)⟩
  have inside : s.cfg.base ≤ s.cfg.base + off.toNat ∧ s.cfg.base + off.toNat < s.cfg.base + 128 := by
    have := off.isLt
    omega
  rw [State.deliver, if_pos inside, Nat.add_sub_cancel_left, BitVec.ofNat_toNat, BitVec.setWidth_eq]

end Sys2Proof.Machine
end

section
/-! PROOFS. DIGEST160 as an argument (00_scope.md R9; 42_checksum.md R183): the pipeline of GENERATE under any digest, and
the host's machine as the machine under its configuration's digest. -/

namespace Sys2Proof.Machine

/-! ## The pipeline under any digest (45_generate.md R250) -/

section

variable (D : Digest160) (s : State)

theorem getLsbD_pipelineBodyWith_recReg (k : Nat) :
    (s.pipelineBodyWith D).recReg.getLsbD k = if k < 40 then (s.pipelineBodyWith D).ck.getLsbD k else packedCell s k := by
  rw [State.pipelineBodyWith_recReg, getLsbD_setField_hash, getLsbD_packedRecord]

theorem secretBytes_pipelineBodyWith : secretBytes (s.pipelineBodyWith D) = secretBytes s := by
  rw [State.pipelineBodyWith_frame]
  rfl

/-- DG is the digest of the record the pipeline leaves: the Hash field it writes last is not hashed. -/
theorem State.pipelineBodyWith_dg_eq_digest :
    (s.pipelineBodyWith D).dg = D (specMessage (s.pipelineBodyWith D)) := by
  have cfg : (s.pipelineBodyWith D).cfg = s.cfg := (Wrote.of_pipeline D s).cfg
  have message : digestMessage (s.setRec (packedRecord s)) = digestMessage (s.pipelineBodyWith D) := by
    refine digestMessage_congr (fun k hk => ?_) ?_ ?_ ?_
    · rw [getLsbD_pipelineBodyWith_recReg, if_neg (Nat.not_lt.mpr hk), State.setRec_recReg, getLsbD_packedRecord]
    · rw [secretBytes_setRec, secretBytes_pipelineBodyWith]
    · rw [State.setRec_cfg, cfg]
    · rw [State.setRec_cfg, cfg]
  rw [State.pipelineBodyWith_dg, message, digestMessage_eq_specMessage]

theorem encodesRecord_pipelineBodyWith :
    EncodesRecord s.cfg (s.pipelineBodyWith D).precReg (s.pipelineBodyWith D).serial := by
  rw [State.pipelineBodyWith_serial]
  exact encodesRecord_encodeSerial s.cfg _ s.serial

theorem State.pipelineBodyWith_complete :
    (s.pipelineBodyWith D).complete = { s with
      recReg := (s.pipelineBodyWith D).recReg, precReg := (s.pipelineBodyWith D).precReg
      ck := (s.pipelineBodyWith D).ck, dg := (s.pipelineBodyWith D).dg, serial := (s.pipelineBodyWith D).serial
      serialValid := true, ok := true, err := false, errCode := 0#4 } := by
  have frame := s.pipelineBodyWith_frame D
  generalize s.pipelineBodyWith D = u at frame ⊢
  rw [frame]
  rfl

end

/-! ## GENERATE under any digest (45_generate.md R250, R252) -/

theorem execGenerateWith_of_argsValid (D : Digest160) {s : State} (h : ArgsValid s) :
    execGenerateWith D s = .next (s.pipelineBodyWith D).complete := by
  rw [execGenerateWith, checkArgs_ok s h]
  rfl

/-- A failing check comes before the digest: GENERATE then does the same under every digest. -/
theorem execGenerateWith_of_argsFail (D D' : Digest160) {s : State} {code : BitVec 4} (h : ArgsFail s code) :
    execGenerateWith D s = execGenerateWith D' s := by
  obtain ⟨e, failed, -⟩ := checkArgs_error s code h
  rw [execGenerateWith, execGenerateWith, failed]

/-! ## The host's machine (10_state.md R43) -/

/-- A command word runs under the configuration's digest, which the write of LASTCMD does not change. -/
theorem runCommandBy_exec_eq (c : Word) (s : State) :
    runCommandBy exec c s = runCommandBy (execWith (digest160 s.cfg.digest)) c s := by
  rw [runCommandBy, runCommandBy]
  cases decode c with
  | ok i => exact exec_eq_execWith i (s.setLastCmd c)
  | error e => rfl

/-! What runs a decoded command matters to a write of CMD alone. -/

theorem writeRegBy_congr {run run' : Executor} {s : State} (h : ∀ c, runCommandBy run c s = runCommandBy run' c s)
    (r : HostReg) (v : Word) : writeRegBy run r v s = writeRegBy run' r v s := by
  cases r with
  | cmd => exact h v
  | _ => rfl

theorem performBy_congr {run run' : Executor} {s : State} (h : ∀ c, runCommandBy run c s = runCommandBy run' c s)
    (e : HostEvent) : performBy run e s = performBy run' e s := by
  cases e with
  | read | reset => rfl
  | write off size v =>
    rw [performBy, performBy]
    cases accessReg off size with
    | none => rfl
    | some r => exact writeRegBy_congr h r v

theorem step_eq_stepWith (s : State) : step s = stepWith (digest160 s.cfg.digest) s := by
  rw [step, performNext, stepWith, performNextBy, performNextBy]
  cases s.pending with
  | nil => rfl
  | cons e _ => exact performBy_congr (fun c => runCommandBy_exec_eq c s.accept) e

/-- A write of a command's word runs the command under the given digest. -/
theorem stepWith_command (D : Digest160) {s : State} {c : Word} {rest : List HostEvent} {i : Instr}
    (hp : s.pending = cmdWrite c :: rest) (hi : decode c = .ok i) :
    stepWith D s = execWith D i (s.accept.setLastCmd c) := by
  have access : accessReg (offsetOf .cmd) 4 = some .cmd := accessReg_eq_some.mpr ⟨rfl, rfl⟩
  simp only [stepWith, performNextBy, hp, cmdWrite, performBy, access, writeRegBy, runCommandBy, hi]

/-- Settles O57: CHECKSUM and GENERATE use the argument, no other command reads it, and the host's step is the step under
its configuration's digest. -/
theorem digestIsArgument : Obligations.DigestIsArgument := by
  refine ⟨fun D s => ⟨execChecksumWith_eq D s, fun valid => ?valid, fun code failing => ?failing, fun i hc hg => ?other⟩,
    fun D s c rest i hp hi => ?command, step_eq_stepWith⟩
  case valid =>
    refine ⟨(s.pipelineBodyWith D).complete, execGenerateWith_of_argsValid D valid, getLsbD_pipelineBodyWith_recReg D s,
      s.pipelineBodyWith_dg_eq_digest D, s.pipelineBodyWith_ck D, ?permuted, encodesRecord_pipelineBodyWith D s,
      s.pipelineBodyWith_complete D⟩
    intro d hd
    rw [State.complete_precReg, State.pipelineBodyWith_precReg]
    exact getLsbD_permuteRecord_specSource _ hd
  case failing => exact execGenerateWith_of_argsFail D (digest160 s.cfg.digest) failing
  case other => exact execWith_eq_exec D hc hg s
  case command =>
    rw [stepWith_command D hp hi, State.accept_of_pending hp]
    rfl

end Sys2Proof.Machine
end
